-- ==== Sys2Proof/Word.lean ====
section
/-! DEFINITION. The two word types of the block and their plainest arithmetic. -/

namespace Sys2Proof

/-- A code unit: one unsigned 16-bit word, bit 15 the most significant (00_scope.md R8, R10). -/
abbrev Word := BitVec 16

/-- A binary64 bit pattern, bit 63 the sign (00_scope.md R12). -/
abbrev Pattern := BitVec 64

/-- The word's value lies in `lo .. hi`, both ends included. -/
def Word.between (lo hi : Nat) (w : Word) : Bool :=
  decide (lo ≤ w.toNat) && decide (w.toNat ≤ hi)

theorem Word.between_iff (lo hi : Nat) (w : Word) :
    Word.between lo hi w = true ↔ lo ≤ w.toNat ∧ w.toNat ≤ hi := by
  simp [Word.between]

end Sys2Proof
end

