-- ==== Sys2Proof/Config.lean ====
section
/-! DEFINITION. The parameters of an implementation (00_scope.md R9) and the values the spec leaves free. -/

namespace Sys2Proof

/-- How far OFF_WIDTH exceeds its least value 3. OFF_WIDTH is OPEN (00_scope.md R9, D5); it has no value here, so a
proof holds for every width (log 1). -/
opaque Config.offWidthBeyondMin : Nat

/-- OFF_WIDTH: the width of DEC_OFF, of BUF_LEN and of BUF's address space, at least 3 (00_scope.md R9). -/
def Config.offWidth : Nat := Config.offWidthBeyondMin + 3

theorem Config.three_le_offWidth : 3 ≤ Config.offWidth := Nat.le_add_left 3 _

theorem Config.eight_le_addresses : 8 ≤ 2 ^ Config.offWidth :=
  Nat.pow_le_pow_right (n := 2) (by decide) Config.three_le_offWidth

/-- A value of DEC_OFF or BUF_LEN, and a word address of BUF (10_state.md R23). -/
abbrev Off := BitVec Config.offWidth

/-- An offset below 8: it fits every OFF_WIDTH. -/
def Off.small (n : Nat) (h : n < 8) : Off := BitVec.ofNatLT n (Nat.lt_of_lt_of_le h Config.eight_le_addresses)

@[simp] theorem Off.small_toNat (n : Nat) (h : n < 8) : (Off.small n h).toNat = n := by simp [Off.small]

/-- FREE VALUE: what the word of BUF at an address holds after the reset of a given number, until the host writes it.
"A model treats every BUF word as any 16-bit value until the host writes it" (70_reset_and_hazards.md R330; log 3). -/
opaque Config.bufAtReset : Nat → Nat → Word

/-- FREE VALUE: what NEXT's write leaves in DEC_OFF where the sum DEC_OFF + DEC_CONS does not fit OFF_WIDTH bits.
The spec states no result there (30_encoding.md R86; log 12). -/
opaque Config.unfitOffset : Nat → Off

/-- DECODE_NAN_BITS: the pattern DECODE returns for the NaN word. "Its value is decided as 0x7FF8000000000000"
(46_special_values.md R243; log 2). -/
def Config.decodeNanBits : Pattern := 0x7FF8000000000000#64

end Sys2Proof
end

