-- ==== Sys2Proof/Syntax.lean ====
section
/-! DEFINITION. The block's instructions, one constructor per row of opcode_table.json, and the host's actions. -/

namespace Sys2Proof

/-- The rows of opcode_table.json. `encode` and `decode` are the two commands (30_encoding.md R70); the LEAD16 rows are
the lead words DECODE dispatches on (R71); the CONT16 rows are continuation words (R74). A row of forbidden words
carries the offending word itself. -/
inductive Instr where
  /-- ENCODE, CMD[0] = 0 (43_encoder_dispatch.md R170). -/
  | encode
  /-- DECODE, CMD[0] = 1 (45_decoder_dispatch.md R210). -/
  | decode
  /-- GB lead word, 0x0000–0x7FFF: length code L, sign, exponent field X (30_encoding.md R73). -/
  | gb (L : BitVec 2) (sg : BitVec 1) (X : BitVec 12)
  /-- DS word of exponent code E4 = 0, e = -5: sign, mantissa M (30_encoding.md R75, R81). -/
  | dsEM5 (sg : BitVec 1) (M : BitVec 10)
  /-- DS word of exponent code E4 = 1, e = -4: sign, mantissa M (30_encoding.md R75, R81). -/
  | dsEM4 (sg : BitVec 1) (M : BitVec 10)
  /-- DS word of exponent code E4 = 2, e = -3: sign, mantissa M (30_encoding.md R75, R81). -/
  | dsEM3 (sg : BitVec 1) (M : BitVec 10)
  /-- DS word of exponent code E4 = 3, e = -2: sign, mantissa M (30_encoding.md R75, R81). -/
  | dsEM2 (sg : BitVec 1) (M : BitVec 10)
  /-- DS word of exponent code E4 = 4, e = -1: sign, mantissa M (30_encoding.md R75, R81). -/
  | dsEM1 (sg : BitVec 1) (M : BitVec 10)
  /-- DS word of exponent code E4 = 5, e = 0: sign, mantissa M (30_encoding.md R75, R81). -/
  | dsEP0 (sg : BitVec 1) (M : BitVec 10)
  /-- DS word of exponent code E4 = 6, e = 1: sign, mantissa M (30_encoding.md R75, R81). -/
  | dsEP1 (sg : BitVec 1) (M : BitVec 10)
  /-- DS word of exponent code E4 = 7, e = 2: sign, mantissa M (30_encoding.md R75, R81). -/
  | dsEP2 (sg : BitVec 1) (M : BitVec 10)
  /-- DS word of exponent code E4 = 8, e = 3: sign, mantissa M (30_encoding.md R75, R81). -/
  | dsEP3 (sg : BitVec 1) (M : BitVec 10)
  /-- DS word of exponent code E4 = 9, e = 4: sign, mantissa M (30_encoding.md R75, R81). -/
  | dsEP4 (sg : BitVec 1) (M : BitVec 10)
  /-- DS word of exponent code E4 = 10, e = 5: sign, mantissa M (30_encoding.md R75, R81). -/
  | dsEP5 (sg : BitVec 1) (M : BitVec 10)
  /-- DS word of exponent code E4 = 12, e = 6: sign, mantissa M (30_encoding.md R75, R81). -/
  | dsEP6 (sg : BitVec 1) (M : BitVec 10)
  /-- DS word of exponent code E4 = 13, e = 7: sign, mantissa M (30_encoding.md R75, R81). -/
  | dsEP7 (sg : BitVec 1) (M : BitVec 10)
  /-- DS word of exponent code E4 = 14, e = 8: sign, mantissa M (30_encoding.md R75, R81). -/
  | dsEP8 (sg : BitVec 1) (M : BitVec 10)
  /-- Surrogate band 0xD800–0xDFFF (30_encoding.md R78). -/
  | sur (w : Word)
  /-- NI lead word, 0xF800–0xF8FF: sign, length code L, exponent field e5 (30_encoding.md R76). -/
  | ni (sg : BitVec 1) (L : BitVec 2) (e5 : BitVec 5)
  /-- Reserved words 0xF900–0xF9FF (30_encoding.md R79). -/
  | rsvF900 (w : Word)
  /-- Reserved words 0xFA00–0xFBFF (30_encoding.md R79). -/
  | rsvFA00 (w : Word)
  /-- Reserved words 0xFC00–0xFDFF (30_encoding.md R79). -/
  | rsvFC00 (w : Word)
  /-- Reserved words 0xFE00–0xFEFF (30_encoding.md R79). -/
  | rsvFE00 (w : Word)
  /-- Reserved words 0xFF00–0xFF7F (30_encoding.md R79). -/
  | rsvFF00 (w : Word)
  /-- Reserved words 0xFF80–0xFFBF (30_encoding.md R79). -/
  | rsvFF80 (w : Word)
  /-- Reserved words 0xFFC0–0xFFDF (30_encoding.md R79). -/
  | rsvFFC0 (w : Word)
  /-- Reserved words 0xFFE0–0xFFEF (30_encoding.md R79). -/
  | rsvFFE0 (w : Word)
  /-- Reserved word 0xFFF5 (30_encoding.md R79). -/
  | rsvFFF5
  /-- Reserved words 0xFFF6–0xFFF7 (30_encoding.md R79). -/
  | rsvFFF6 (w : Word)
  /-- Reserved words 0xFFF8–0xFFFF (30_encoding.md R79). -/
  | rsvFFF8 (w : Word)
  /-- Special word 0xFFF0: +0 (30_encoding.md R77). -/
  | spPzero
  /-- Special word 0xFFF1: −0 (30_encoding.md R77). -/
  | spNzero
  /-- Special word 0xFFF2: +∞ (30_encoding.md R77). -/
  | spPinf
  /-- Special word 0xFFF3: −∞ (30_encoding.md R77). -/
  | spNinf
  /-- Special word 0xFFF4: NaN (30_encoding.md R77). -/
  | spNan
  /-- Continuation word 0x0000–0x7FFF: mantissa chunk c (30_encoding.md R74). -/
  | chunk (c : BitVec 15)
  /-- Continuation word 0x8000–0xFFFF: rejected (45_decoder_dispatch.md R215). -/
  | chunkIllegal (w : Word)
  deriving DecidableEq, Repr

/-- What an instruction is read from: the value written to CMD, or a 16-bit word together with its position in the
encoded value. "A lead word is classified by its value alone" (30_encoding.md R71); a later word is a continuation word
(R74), so the position is part of the encoding (log 9). -/
inductive CodeWord where
  /-- A write of CMD (30_encoding.md R70). -/
  | cmd (v : BitVec 1)
  /-- Word 0 of an encoded value (30_encoding.md R71). -/
  | lead (w : Word)
  /-- Word 1 to 4 of an encoded value (30_encoding.md R74). -/
  | cont (w : Word)
  deriving DecidableEq, Repr

/-- The result registers: read-only to the host (10_state.md R24). -/
inductive ResultPort where
  | encOut (k : Fin 5) | encLen | decVal | decCons | decStatus | decErridx
  deriving DecidableEq, Repr

/-- The port registers the host can read (10_state.md R23). CMD is write-only and reads as 0 (R24). -/
inductive Port where
  | cmd | encIn | bufLen | decOff | result (r : ResultPort)
  deriving DecidableEq, Repr

/-- A host write other than of CMD (10_state.md R22, R24). -/
inductive HostWrite where
  /-- `ENC_IN <- v` -/
  | encIn (v : Pattern)
  /-- `BUF_LEN <- v` -/
  | bufLen (v : Off)
  /-- `DEC_OFF <- v` -/
  | decOff (v : Off)
  /-- A write to a result register, which R24 says is ignored. -/
  | readOnly (r : ResultPort) (v : Pattern)
  /-- `MemWrite(a, 1, w)`: a word of BUF (00_scope.md R11, 20_memory.md R50). -/
  | buf (a : Nat) (w : Word)
  deriving DecidableEq, Repr

/-- What the host, or the world outside, can do to the block in one step (10_state.md R22, 30_encoding.md R85, R86). -/
inductive HostAction where
  /-- A write of CMD: it issues a command (10_state.md R23). -/
  | cmd (v : BitVec 1)
  /-- Any other write. -/
  | write (h : HostWrite)
  /-- `PUT a`: copy the last encoding into BUF from address a on (30_encoding.md R86). -/
  | put (a : Nat)
  /-- `NEXT`: advance DEC_OFF by DEC_CONS (30_encoding.md R86). -/
  | next
  /-- Reset of the block (70_reset_and_hazards.md R330; log 10). -/
  | reset
  deriving DecidableEq, Repr

end Sys2Proof
end

