-- ==== Sys2Proof/WellFormed.lean ====
section
/-! DEFINITION. Which terms of `Instr` and of the host's actions stand for something the spec has. -/

namespace Sys2Proof

/-- A row of forbidden words carries a word of its own range (30_encoding.md R71, R74; opcode_table.json). Every
other operand has exactly its field's width by its type. -/
def Instr.wf : Instr → Bool
  | .encode => true
  | .decode => true
  | .gb _ _ _ => true
  | .dsEM5 _ _ => true
  | .dsEM4 _ _ => true
  | .dsEM3 _ _ => true
  | .dsEM2 _ _ => true
  | .dsEM1 _ _ => true
  | .dsEP0 _ _ => true
  | .dsEP1 _ _ => true
  | .dsEP2 _ _ => true
  | .dsEP3 _ _ => true
  | .dsEP4 _ _ => true
  | .dsEP5 _ _ => true
  | .dsEP6 _ _ => true
  | .dsEP7 _ _ => true
  | .dsEP8 _ _ => true
  | .sur w => w.between 0xD800 0xDFFF
  | .ni _ _ _ => true
  | .rsvF900 w => w.between 0xF900 0xF9FF
  | .rsvFA00 w => w.between 0xFA00 0xFBFF
  | .rsvFC00 w => w.between 0xFC00 0xFDFF
  | .rsvFE00 w => w.between 0xFE00 0xFEFF
  | .rsvFF00 w => w.between 0xFF00 0xFF7F
  | .rsvFF80 w => w.between 0xFF80 0xFFBF
  | .rsvFFC0 w => w.between 0xFFC0 0xFFDF
  | .rsvFFE0 w => w.between 0xFFE0 0xFFEF
  | .rsvFFF5 => true
  | .rsvFFF6 w => w.between 0xFFF6 0xFFF7
  | .rsvFFF8 w => w.between 0xFFF8 0xFFFF
  | .spPzero => true
  | .spNzero => true
  | .spPinf => true
  | .spNinf => true
  | .spNan => true
  | .chunk _ => true
  | .chunkIllegal w => w.between 0x8000 0xFFFF

/-- A host write of BUF names an address of the address space (20_memory.md R50, R58). -/
def HostWrite.wf : HostWrite → Prop
  | .buf a _ => a < 2 ^ Config.offWidth
  | .encIn _ => True
  | .bufLen _ => True
  | .decOff _ => True
  | .readOnly _ _ => True

end Sys2Proof
end

