-- ==== Sys2Proof/Decode.lean ====
section
/-! DEFINITION. From code words to instructions (30_encoding.md R70 to R81, opcode_table.json), the encoder back, and the
bit-field helpers of 00_scope.md R10. -/

namespace Sys2Proof

/-- `v[lo + len - 1 : lo]`: `len` bits of v from bit `lo` up (00_scope.md R10). -/
def slice (lo len : Nat) {n : Nat} (v : BitVec n) : BitVec len := v.extractLsb' lo len

/-- `{a:Na, b:Nb, ...}`: concatenation of (width, value) fields, the first in the high bits (00_scope.md R10). -/
def catBits : List (Nat × Nat) → Nat :=
  List.foldl (fun acc f => acc * 2 ^ f.1 + f.2) 0

/-- The row of a lead word, "classified by its value alone" (30_encoding.md R71, R81): the rows in the rising order of
their ranges, each test excluding the next row's first word. -/
def decodeLead (w : Word) : Instr :=
  if w.toNat < 0x8000 then .gb (slice 13 2 w) (slice 12 1 w) (slice 0 12 w)
  else if w.toNat < 0x8800 then .dsEM5 (slice 10 1 w) (slice 0 10 w)
  else if w.toNat < 0x9000 then .dsEM4 (slice 10 1 w) (slice 0 10 w)
  else if w.toNat < 0x9800 then .dsEM3 (slice 10 1 w) (slice 0 10 w)
  else if w.toNat < 0xA000 then .dsEM2 (slice 10 1 w) (slice 0 10 w)
  else if w.toNat < 0xA800 then .dsEM1 (slice 10 1 w) (slice 0 10 w)
  else if w.toNat < 0xB000 then .dsEP0 (slice 10 1 w) (slice 0 10 w)
  else if w.toNat < 0xB800 then .dsEP1 (slice 10 1 w) (slice 0 10 w)
  else if w.toNat < 0xC000 then .dsEP2 (slice 10 1 w) (slice 0 10 w)
  else if w.toNat < 0xC800 then .dsEP3 (slice 10 1 w) (slice 0 10 w)
  else if w.toNat < 0xD000 then .dsEP4 (slice 10 1 w) (slice 0 10 w)
  else if w.toNat < 0xD800 then .dsEP5 (slice 10 1 w) (slice 0 10 w)
  else if w.toNat < 0xE000 then .sur w
  else if w.toNat < 0xE800 then .dsEP6 (slice 10 1 w) (slice 0 10 w)
  else if w.toNat < 0xF000 then .dsEP7 (slice 10 1 w) (slice 0 10 w)
  else if w.toNat < 0xF800 then .dsEP8 (slice 10 1 w) (slice 0 10 w)
  else if w.toNat < 0xF900 then .ni (slice 7 1 w) (slice 5 2 w) (slice 0 5 w)
  else if w.toNat < 0xFA00 then .rsvF900 w
  else if w.toNat < 0xFC00 then .rsvFA00 w
  else if w.toNat < 0xFE00 then .rsvFC00 w
  else if w.toNat < 0xFF00 then .rsvFE00 w
  else if w.toNat < 0xFF80 then .rsvFF00 w
  else if w.toNat < 0xFFC0 then .rsvFF80 w
  else if w.toNat < 0xFFE0 then .rsvFFC0 w
  else if w.toNat < 0xFFF0 then .rsvFFE0 w
  else if w.toNat < 0xFFF1 then .spPzero
  else if w.toNat < 0xFFF2 then .spNzero
  else if w.toNat < 0xFFF3 then .spPinf
  else if w.toNat < 0xFFF4 then .spNinf
  else if w.toNat < 0xFFF5 then .spNan
  else if w.toNat < 0xFFF6 then .rsvFFF5
  else if w.toNat < 0xFFF8 then .rsvFFF6 w
  else .rsvFFF8 w

/-- The row of a continuation word: bit 15 decides (30_encoding.md R74, 45_decoder_dispatch.md R215). -/
def decodeCont (w : Word) : Instr :=
  if w.toNat < 0x8000 then .chunk (slice 0 15 w) else .chunkIllegal w

/-- The command a value of CMD selects; both values are legal (30_encoding.md R70). -/
def decodeCmd (v : BitVec 1) : Instr :=
  if v = 0#1 then .encode else .decode

/-- The decoder: total, since every CMD value and every 16-bit word in either position has a row (R70, R71, R74). -/
def decode : CodeWord → Instr
  | .cmd v => decodeCmd v
  | .lead w => decodeLead w
  | .cont w => decodeCont w

/-- The word of a DS row from its exponent code (30_encoding.md R75), a code of four bits; what it gives for a larger number
is the model's and is never used (log 18). -/
def dsWord (E4 : Nat) (sg : BitVec 1) (M : BitVec 10) : Word :=
  BitVec.ofNat 16 (catBits [(1, 1), (4, E4), (1, sg.toNat), (10, M.toNat)])

/-- The GB lead word (30_encoding.md R73). -/
def gbWord (L : BitVec 2) (sg : BitVec 1) (X : BitVec 12) : Word :=
  BitVec.ofNat 16 (catBits [(1, 0), (2, L.toNat), (1, sg.toNat), (12, X.toNat)])

/-- The NI lead word, the fields in the order of 90_conflicts.md C1 (30_encoding.md R76). -/
def niWord (sg : BitVec 1) (L : BitVec 2) (e5 : BitVec 5) : Word :=
  BitVec.ofNat 16 (catBits [(8, 0xF8), (1, sg.toNat), (2, L.toNat), (5, e5.toNat)])

/-- The continuation word of a chunk (30_encoding.md R74). -/
def chunkWord (c : BitVec 15) : Word := BitVec.ofNat 16 (catBits [(1, 0), (15, c.toNat)])

/-- The encoder of the instruction set: the code word of an instruction (30_encoding.md R70 to R81). -/
def encode : Instr → CodeWord
  | .encode => .cmd 0#1
  | .decode => .cmd 1#1
  | .gb L sg X => .lead (gbWord L sg X)
  | .dsEM5 sg M => .lead (dsWord 0 sg M)
  | .dsEM4 sg M => .lead (dsWord 1 sg M)
  | .dsEM3 sg M => .lead (dsWord 2 sg M)
  | .dsEM2 sg M => .lead (dsWord 3 sg M)
  | .dsEM1 sg M => .lead (dsWord 4 sg M)
  | .dsEP0 sg M => .lead (dsWord 5 sg M)
  | .dsEP1 sg M => .lead (dsWord 6 sg M)
  | .dsEP2 sg M => .lead (dsWord 7 sg M)
  | .dsEP3 sg M => .lead (dsWord 8 sg M)
  | .dsEP4 sg M => .lead (dsWord 9 sg M)
  | .dsEP5 sg M => .lead (dsWord 10 sg M)
  | .dsEP6 sg M => .lead (dsWord 12 sg M)
  | .dsEP7 sg M => .lead (dsWord 13 sg M)
  | .dsEP8 sg M => .lead (dsWord 14 sg M)
  | .sur w => .lead w
  | .ni sg L e5 => .lead (niWord sg L e5)
  | .rsvF900 w => .lead w
  | .rsvFA00 w => .lead w
  | .rsvFC00 w => .lead w
  | .rsvFE00 w => .lead w
  | .rsvFF00 w => .lead w
  | .rsvFF80 w => .lead w
  | .rsvFFC0 w => .lead w
  | .rsvFFE0 w => .lead w
  | .rsvFFF5 => .lead 0xFFF5#16
  | .rsvFFF6 w => .lead w
  | .rsvFFF8 w => .lead w
  | .spPzero => .lead 0xFFF0#16
  | .spNzero => .lead 0xFFF1#16
  | .spPinf => .lead 0xFFF2#16
  | .spNinf => .lead 0xFFF3#16
  | .spNan => .lead 0xFFF4#16
  | .chunk c => .cont (chunkWord c)
  | .chunkIllegal w => .cont w

/-- Why bits handed to the decoder are no code word. -/
inductive DecodeError where
  /-- A value other than 0 or 1 for the 1-bit register CMD (10_state.md R23). -/
  | cmdOutOfRange
  /-- A number of bits that is neither a CMD write nor one to five whole words (30_encoding.md R83). -/
  | badLength
  deriving DecidableEq, Repr

/-- The code word in the first bits of an instruction of `nbits` bits: up to a byte for CMD, one to five 16-bit words for
an encoded value, whose word 0 is its lead word (30_encoding.md R70, R83; log 21). -/
def readCodeWord (nbits w : Nat) : Except DecodeError CodeWord :=
  if nbits ≤ 8 then
    if w < 2 then .ok (.cmd (BitVec.ofNat 1 w)) else .error .cmdOutOfRange
  else if nbits % 16 = 0 ∧ nbits ≤ 80 then .ok (.lead (BitVec.ofNat 16 w))
  else .error .badLength

/-- The instruction the decoder reads from the `nbits` bits w, numbered as opcode_table.json numbers them. A 16-bit row
is read as a lead word, so the words of the CONT16 rows read as lead words here (log 9). -/
def decodeTableWord (nbits w : Nat) : Option Instr :=
  match readCodeWord nbits w with
  | .ok c => some (decode c)
  | .error _ => none

end Sys2Proof
end

