-- ==== Sys2Proof/Machine/Exact.lean ====
section
/-! DEFINITION. Binary64 patterns and the exact arithmetic of 00_scope.md section 5: Classify, Value, floor(log2), ilog10
and RoundToBinary64. -/

namespace Sys2Proof.Machine

/-- An exact rational q ≥ 0, the `Q` of 00_scope.md R10, not necessarily in lowest terms. -/
structure Ratio where
  num : Nat
  den : Nat
  den_pos : 0 < den
  deriving DecidableEq, Repr

/-- The integer n. -/
def Ratio.ofNat (n : Nat) : Ratio := ⟨n, 1, Nat.one_pos⟩

/-- `q * 2^k`, exactly. -/
def Ratio.mulPow2 (q : Ratio) : Int → Ratio
  | .ofNat n => ⟨q.num * 2 ^ n, q.den, q.den_pos⟩
  | .negSucc n => ⟨q.num, q.den * 2 ^ (n + 1), Nat.mul_pos q.den_pos (Nat.pow_pos Nat.two_pos)⟩

/-- `q * 10^k`, exactly. -/
def Ratio.mulPow10 (q : Ratio) : Int → Ratio
  | .ofNat n => ⟨q.num * 10 ^ n, q.den, q.den_pos⟩
  | .negSucc n => ⟨q.num, q.den * 10 ^ (n + 1), Nat.mul_pos q.den_pos (Nat.pow_pos (by decide))⟩

/-- `IsInteger(q)`: the denominator divides out (00_scope.md R11). -/
def Ratio.isInteger (q : Ratio) : Bool := q.num % q.den == 0

/-- `floor(q)`. -/
def Ratio.floor (q : Ratio) : Nat := q.num / q.den

/-- The integer t with 2^t ≤ q < 2^(t+1), for q > 0 (00_scope.md R13): the difference of the two logarithms, less one
where 2 to that difference exceeds q. Its number for q = 0 is the model's and is never used (log 18). -/
def Ratio.floorLog2 (q : Ratio) : Int :=
  let t : Int := (Nat.log2 q.num : Int) - (Nat.log2 q.den : Int)
  let r := q.mulPow2 (-t)
  if r.den ≤ r.num then t else t - 1

/-- The number of decimal digits of n less one: ilog10 of an integer n > 0, for `fuel` of at least that number. -/
def ilog10Nat : Nat → Nat → Nat
  | 0, _ => 0
  | fuel + 1, n => if n < 10 then 0 else 1 + ilog10Nat fuel (n / 10)

/-- The least j with `den ≤ num * 10^j`, for `fuel` of at least that number. -/
def tensToOne : Nat → Nat → Nat → Nat
  | 0, _, _ => 0
  | fuel + 1, num, den => if den ≤ num then 0 else 1 + tensToOne fuel (num * 10) den

/-- `ilog10(q)`: the integer k with 10^k ≤ q < 10^(k+1), for q > 0 (00_scope.md R11). Its number for q = 0 is the model's
and is never used (log 18). -/
def Ratio.ilog10 (q : Ratio) : Int :=
  if q.den ≤ q.num then ilog10Nat (Nat.log2 q.floor + 1) q.floor
  else -(tensToOne (Nat.log2 q.den + 1) q.num q.den : Int)

/-- `floor(q)` rounded up where the rest is above 1/2, or is 1/2 and the floor is odd (00_scope.md R13). -/
def Ratio.roundHalfEven (q : Ratio) : Nat :=
  let n := q.num / q.den
  let r := q.num % q.den
  if q.den < 2 * r ∨ (2 * r = q.den ∧ n % 2 = 1) then n + 1 else n

/-- The five classes of a binary64 pattern (00_scope.md R12). -/
inductive FloatClass where
  | zero | subnormal | normal | inf | nan
  deriving DecidableEq, Repr

/-- b[63] (00_scope.md R12). -/
def signBit (b : Pattern) : BitVec 1 := slice 63 1 b

/-- E = b[62:52] (00_scope.md R12). -/
def expField (b : Pattern) : Nat := (slice 52 11 b).toNat

/-- F = b[51:0] (00_scope.md R12). -/
def fracField (b : Pattern) : Nat := (slice 0 52 b).toNat

/-- `Classify(b)` (00_scope.md R12). -/
def classify (b : Pattern) : FloatClass :=
  if expField b = 0 then (if fracField b = 0 then .zero else .subnormal)
  else if expField b = 2047 then (if fracField b = 0 then .inf else .nan)
  else .normal

/-- `Value(b)`: the exact magnitude of a finite b (00_scope.md R12); for E = 2047, where the spec has no value, the formula
of the normal patterns (log 18). -/
def value (b : Pattern) : Ratio :=
  if expField b = 0 then (Ratio.ofNat (fracField b)).mulPow2 (-1074)
  else (Ratio.ofNat (2 ^ 52 + fracField b)).mulPow2 ((expField b : Int) - 1075)

/-- `{s:1, e:11, f:52}` (00_scope.md R13), for e and f that fit their fields; what it gives for others is the model's and
is never used (log 18). -/
def assemble (sg : BitVec 1) (e f : Nat) : Pattern :=
  BitVec.ofNat 64 (catBits [(1, sg.toNat), (11, e), (52, f)])

/-- `RoundToBinary64(s, q)`: round to nearest, ties to even, gradual underflow, overflow to infinity (00_scope.md R13). -/
def roundToBinary64 (sg : BitVec 1) (q : Ratio) : Pattern :=
  if q.num = 0 then assemble sg 0 0
  else
    let t := q.floorLog2
    if -1022 ≤ t then
      let n := (q.mulPow2 (52 - t)).roundHalfEven
      let m := if n = 2 ^ 53 then 2 ^ 52 else n
      let u := if n = 2 ^ 53 then t + 1 else t
      if 1023 < u then assemble sg 0x7FF 0 else assemble sg (u + 1023).toNat (m - 2 ^ 52)
    else assemble sg 0 0 ||| BitVec.ofNat 64 (q.mulPow2 1074).roundHalfEven

end Sys2Proof.Machine
end

