-- ==== Sys2Proof/Machine/Extractor.lean ====
section
/-! DEFINITION. The binary-exponent extractor (40_exponent_extractor.md). -/

namespace Sys2Proof.Machine

/-- `EXTRACT(b)` for a finite nonzero b: the binary exponent p, with the denormal clamp, and the 60-bit Y with
Value(b) = Y * 2^(p+1-60) (40_exponent_extractor.md R101, R102); its answer for the other classes is the model's (log 18). -/
def extract (b : Pattern) : Int × BitVec 60 :=
  let F := fracField b
  if expField b ≠ 0 then ((expField b : Int) - 1023, BitVec.ofNat 60 ((2 ^ 52 + F) * 2 ^ 7))
  else
    let p := max ((Nat.log2 F : Int) - 1074) (-1024)
    (p, BitVec.ofNat 60 (if p = -1023 then F * 2 ^ 8 else F * 2 ^ 9))

end Sys2Proof.Machine
end

