-- ==== Sys2Proof/Machine/State.lean ====
section
/-! DEFINITION. The state of the block as plain data, its stops, and the machine right after reset. -/

namespace Sys2Proof.Machine

/-- One word of BUF the host has written: its word address and its value. BUF has no bytes (20_memory.md R50, R56; log 5). -/
abbrev WordCell := Nat × Word

/-- BUF as the words the host has written since reset, in canonical form: addresses strictly rising. An address that is
not listed holds no written word; it reads as a free value (70_reset_and_hazards.md R330; log 3, log 5). -/
abbrev Memory := List WordCell

/-- The canonical form of `Memory`. -/
abbrev Memory.wf (m : Memory) : Prop := m.Pairwise (fun a b => a.1 < b.1)

/-- The two formats with continuation words, each with its exponent field (45_decoder_dispatch.md R210, `kind`). -/
inductive MultiKind where
  /-- General binary, exponent field X (30_encoding.md R73). -/
  | gb (X : BitVec 12)
  /-- Near-infinity, exponent field e5 (30_encoding.md R76). -/
  | ni (e5 : BitVec 5)
  deriving DecidableEq, Repr

/-- A GB or NI value being read: the locals of R210's pseudocode after `taken` chunks have been accepted (log 7). -/
structure PartialValue where
  /-- The format and its exponent field. -/
  kind : MultiKind
  /-- The sign bit of the lead word. -/
  sg : BitVec 1
  /-- The length code: n = len + 1 chunks follow. -/
  len : BitVec 2
  /-- How many chunks have been accepted; the next one has index taken + 1. -/
  taken : Fin 4
  /-- The accepted chunks, each at its weight (41_mantissa_packer.md R124). -/
  m60 : BitVec 60
  deriving DecidableEq, Repr

/-- The architectural state of 10_state.md R23 and 20_memory.md R50, and three fields of the model's own, named last. -/
structure State where
  /-- ENC_IN (R25). -/
  encIn : Pattern
  /-- ENC_OUT[0..4] (R26). -/
  encOut : Vector Word 5
  /-- ENC_LEN (R26). -/
  encLen : BitVec 3
  /-- BUF_LEN (R27). -/
  bufLen : Off
  /-- DEC_OFF (R27). -/
  decOff : Off
  /-- DEC_VAL (R28). -/
  decVal : Pattern
  /-- DEC_CONS (R28). -/
  decCons : BitVec 3
  /-- DEC_STATUS (R29). -/
  decStatus : BitVec 2
  /-- DEC_ERRIDX (R28). -/
  decErridx : BitVec 3
  /-- BUF: the words written so far (20_memory.md R50). -/
  buf : Memory
  /-- The model's own: how many resets there have been; it indexes BUF's free contents (log 4). -/
  bufEpoch : Nat
  /-- The model's own: the GB or NI value being read inside a DECODE; none between steps (log 7). -/
  decoding : Option PartialValue
  /-- The model's own: the host's actions to come, the next one first (log 6). -/
  pending : List HostAction
  deriving DecidableEq, Repr

/-- Why the machine can stop. -/
inductive Fault where
  /-- Raised by a host write of BUF (WBUF, PUT) to an address of 2^OFF_WIDTH or more, which 20_memory.md R50 and R58 say
  does not exist. Safe: the model stops where the spec gives no effect (log 11). -/
  | noSuchBufAddress
  deriving DecidableEq, Repr

/-- Why a step can have no meaning. -/
inductive Refusal where
  /-- Raised by an arm of `exec` whose instruction has no meaning yet; no arm raises it. Safe: it claims nothing. -/
  | notModelled (mnemonic : String)
  deriving DecidableEq, Repr

/-- The machine right after reset (70_reset_and_hazards.md R330): every port register at its value of 10_state.md R23, no
word of BUF written. The model's own fields start empty (log 4, log 6, log 7). -/
def State.reset : State where
  encIn := 0#64
  encOut := #v[0#16, 0#16, 0#16, 0#16, 0#16]
  encLen := 0#3
  bufLen := Off.small 0 (by decide)
  decOff := Off.small 0 (by decide)
  decVal := 0#64
  decCons := 0#3
  decStatus := 3#2
  decErridx := 0#3
  buf := []
  bufEpoch := 0
  decoding := none
  pending := []

end Sys2Proof.Machine
end

