-- ==== Sys2Proof/Machine/Flags.lean ====
section
/-! DEFINITION. The block's only status flag, DEC_STATUS (10_state.md R29), and the codes of the exception causes. -/

namespace Sys2Proof.Machine

/-- OK: the last DECODE succeeded (10_state.md R29). -/
def statusOk : BitVec 2 := 0#2

/-- ILLEGAL_CODE_UNIT (10_state.md R29). -/
def statusIllegal : BitVec 2 := 1#2

/-- TRUNCATED (10_state.md R29). -/
def statusTruncated : BitVec 2 := 2#2

/-- IDLE: no DECODE has completed since reset (10_state.md R29). -/
def statusIdle : BitVec 2 := 3#2

/-- The two exceptions DECODE can raise (60_exceptions.md R300, R301). -/
inductive Cause where
  | illegalCodeUnit | truncated
  deriving DecidableEq, Repr

/-- The cause code in DEC_STATUS (60_exceptions.md R300 to R302). -/
def causeCode : Cause → BitVec 2
  | .illegalCodeUnit => statusIllegal
  | .truncated => statusTruncated

end Sys2Proof.Machine
end

