-- ==== Sys2Proof/Machine/Operands.lean ====
section
/-! DEFINITION. Field decoding and operand assembly: the numbers the fields of a word stand for (30_encoding.md R80), and the
words DECODE reads (45_decoder_dispatch.md R214). -/

namespace Sys2Proof.Machine

/-- The decimal exponent of an exponent code, through the surrogate-skip bump (30_encoding.md R80). The codes 11 and 15 are no
decimal exponents there; the numbers given to them here are the model's and DECODE never asks for them (log 18). -/
def dsExponent (E4 : Nat) : Int := ((if E4 ≤ 10 then E4 else E4 - 1 : Nat) : Int) - 5

/-- The exponent code of a decimal exponent e in -5 .. 8: R80's inverse. Outside that window the code is the model's and
ENCODE never asks for it (log 18). -/
def dsCode (e : Int) : Nat :=
  let i := (e + 5).toNat
  if i ≤ 10 then i else i + 1

/-- The power of two by which M60 is scaled: X - 1083 for GB (45_decoder_dispatch.md R213), e5 + 962 for NI
(44_near_infinity.md R192). -/
def MultiKind.scale : MultiKind → Int
  | .gb X => (X.toNat : Int) - 1083
  | .ni e5 => (e5.toNat : Int) + 962

/-- The last written word of an address, where there is one. -/
def Memory.read? : Memory → Nat → Option Word
  | [], _ => none
  | (b, w) :: m, a => if a = b then some w else Memory.read? m a

/-- `MemRead(a, 1)`: the written word, or BUF's free contents (00_scope.md R11, 70_reset_and_hazards.md R330). R11
defines it for a < BUF_LEN, the bound `State.readWord` checks; that it reads BUF elsewhere too is the model's (log 18). -/
def State.memRead (s : State) (a : Nat) : Word :=
  (s.buf.read? a).getD (Config.bufAtReset s.bufEpoch a)

/-- `READ(k)`: word k of the value at DEC_OFF, or none where DEC_OFF + k, an unbounded sum, is at or beyond BUF_LEN
(45_decoder_dispatch.md R214, 20_memory.md R59). -/
def State.readWord (s : State) (k : Nat) : Option Word :=
  if s.decOff.toNat + k < s.bufLen.toNat then some (s.memRead (s.decOff.toNat + k)) else none

end Sys2Proof.Machine
end

