-- ==== Sys2Proof/Machine/Packer.lean ====
section
/-! DEFINITION. The mantissa chunk packer and unpacker (41_mantissa_packer.md). -/

namespace Sys2Proof.Machine

/-- `PACK(Y)`: the base-32768 digits of Y up to the last nonzero one (41_mantissa_packer.md R121, R122). PACK is called
with Y > 0 only; for Y = 0 this total function gives the one digit 0 (log 18). -/
def pack (Y : BitVec 60) : List (BitVec 15) :=
  let d1 := slice 45 15 Y
  let d2 := slice 30 15 Y
  let d3 := slice 15 15 Y
  let d4 := slice 0 15 Y
  if d4 ≠ 0#15 then [d1, d2, d3, d4]
  else if d3 ≠ 0#15 then [d1, d2, d3]
  else if d2 ≠ 0#15 then [d1, d2]
  else [d1]

/-- One round of UNPACK's loop: chunk k = taken + 1 goes in at bit 60 - 15 k (41_mantissa_packer.md R124). R124's M60 has no
bit set there or below; what a chunk laid over set bits gives, their OR, is the model's and no step does it (log 18). -/
def unpackStep (m60 : BitVec 60) (taken : Fin 4) (c : BitVec 15) : BitVec 60 :=
  m60 ||| (c.setWidth 60 <<< (45 - 15 * taken.val))

/-- UNPACK from the chunk after `taken` accepted ones on. -/
def unpackFrom (m60 : BitVec 60) (taken : Nat) : List (BitVec 15) → BitVec 60
  | [] => m60
  | c :: cs => if h : taken < 4 then unpackFrom (unpackStep m60 ⟨taken, h⟩ c) (taken + 1) cs else m60

/-- `UNPACK(n, c_1..c_n)`: the 60-bit integer of one to four chunks (41_mantissa_packer.md R124); what it gives for no
chunk, 0, or for more, the first four's, is the model's (log 18). -/
def unpack (cs : List (BitVec 15)) : BitVec 60 := unpackFrom 0#60 0 cs

end Sys2Proof.Machine
end

