-- ==== Sys2Proof/Machine/Ops.lean ====
section
/-! DEFINITION. The named operations over BUF and the registers: host writes of BUF, the results of the two commands, raising
an exception, and reading a multi-word value. -/

namespace Sys2Proof.Machine

/-- A write of one word, keeping the canonical form. -/
def Memory.write : Memory → Nat → Word → Memory
  | [], a, w => [(a, w)]
  | (b, v) :: m, a, w =>
    if a < b then (a, w) :: (b, v) :: m
    else if a = b then (a, w) :: m
    else (b, v) :: Memory.write m a w

/-- Several words from an address on, in rising order: `MemWrite(a, n, v)` (00_scope.md R11). -/
def Memory.writeAll : Memory → Nat → List Word → Memory
  | m, _, [] => m
  | m, a, w :: ws => Memory.writeAll (m.write a w) (a + 1) ws

/-- ENCODE's results: the words, then 0x0000, and their number (43_encoder_dispatch.md R177), for one to five words; what
it keeps of any other list is the model's and ENCODE never gives one (log 18). -/
def State.setEncoding (seq : List Word) (s : State) : State :=
  { s with
    encOut := #v[seq.getD 0 0#16, seq.getD 1 0#16, seq.getD 2 0#16, seq.getD 3 0#16, seq.getD 4 0#16]
    encLen := BitVec.ofNat 3 seq.length }

/-- DECODE's results on success (45_decoder_dispatch.md R220, 10_state.md R28), for cons in 1 .. 5; the low bits of any
other number are the model's and no DECODE gives one (log 18). -/
def State.deliver (v : Pattern) (cons : Nat) (s : State) : State :=
  { s with
    decVal := v
    decCons := BitVec.ofNat 3 cons
    decStatus := statusOk
    decErridx := 0#3
    decoding := none }

/-- TAKING AN EXCEPTION: `raise IllegalCodeUnit(k)` and `raise Truncated(k)` end the DECODE with these writes and no other
(60_exceptions.md R302). There is no handler and no return (R305, R306). k is in 0 .. 4 (00_scope.md R11);
the low bits of any other number are the model's and no step from a legal state gives one (log 18). -/
def State.raise (c : Cause) (k : Nat) (s : State) : State :=
  { s with
    decVal := 0#64
    decCons := 0#3
    decStatus := causeCode c
    decErridx := BitVec.ofNat 3 k
    decoding := none }

/-- A GB or NI lead word has been read: n = L + 1 chunks are to follow (45_decoder_dispatch.md R210). -/
def State.beginValue (kind : MultiKind) (sg : BitVec 1) (L : BitVec 2) (s : State) : State :=
  { s with decoding := some { kind := kind, sg := sg, len := L, taken := 0, m60 := 0#60 } }

/-- The value of a complete GB or NI reading, rounded once (45_decoder_dispatch.md R213, 44_near_infinity.md R192). -/
def multiValue (kind : MultiKind) (sg : BitVec 1) (m60 : BitVec 60) : Pattern :=
  roundToBinary64 sg ((Ratio.ofNat m60.toNat).mulPow2 kind.scale)

/-- A chunk has been read and accepted: it joins M60; the last one completes the value (45_decoder_dispatch.md R210). That it
also completes a reading that already has more chunks than its length is the model's and no step meets one (log 18). -/
def State.acceptChunk (c : BitVec 15) (p : PartialValue) (s : State) : State :=
  let m := unpackStep p.m60 p.taken c
  if p.len.toNat ≤ p.taken.val then s.deliver (multiValue p.kind p.sg m) (2 + p.taken.val)
  else { s with decoding := some { p with taken := p.taken + 1, m60 := m } }

/-- The word after the accepted ones has been read: a chunk is accepted, a word with bit 15 set is rejected at its index
(45_decoder_dispatch.md R215). -/
def State.acceptContinuation (w : Word) (p : PartialValue) (s : State) : State :=
  if w.toNat < 0x8000 then s.acceptChunk (slice 0 15 w) p
  else s.raise .illegalCodeUnit (p.taken.val + 1)

/-- Read the continuation words one by one, each only after the one before was accepted, until the value is complete or
an exception ends the command (45_decoder_dispatch.md R210, R214; 60_exceptions.md R303). `fuel` 4 is enough: a value
has at most four chunks. -/
def State.readChunks : Nat → State → State
  | 0, s => s
  | fuel + 1, s =>
    match s.decoding with
    | none => s
    | some p =>
      match s.readWord (p.taken.val + 1) with
      | none => s.raise .truncated (p.taken.val + 1)
      | some w => State.readChunks fuel (s.acceptContinuation w p)

/-- DECODE after a GB or NI lead word (45_decoder_dispatch.md R210). -/
def State.decodeMulti (kind : MultiKind) (sg : BitVec 1) (L : BitVec 2) (s : State) : State :=
  State.readChunks 4 (s.beginValue kind sg L)

end Sys2Proof.Machine
end

