-- ==== Sys2Proof/Machine/NearInfinity.lean ====
section
/-! DEFINITION. The near-infinity sub-format (44_near_infinity.md) and the meaning of the NI row. -/

namespace Sys2Proof.Machine

/-- `NI_ENCODE(s, p, Y)`: the lead word with e5 = (p - 1) - 1020 and the chunks of Y (44_near_infinity.md R190), for
p = 1023; elsewhere its words are the model's and ENCODE never asks for them (log 18). -/
def niEncode (sg : BitVec 1) (p : Int) (Y : BitVec 60) : List Word :=
  let ds := pack Y
  niWord sg (BitVec.ofNat 2 (ds.length - 1)) (BitVec.ofNat 5 (p - 1 - 1020).toNat) :: ds.map chunkWord

/-- NI: the DECODE whose lead word this is reads L + 1 chunks and delivers M60 * 2^(e5 + 962), rounded once
(44_near_infinity.md R192, R193). -/
def execNi (sg : BitVec 1) (L : BitVec 2) (e5 : BitVec 5) (s : State) : Host.Outcome State Fault Refusal :=
  .next (s.decodeMulti (.ni e5) sg L)

end Sys2Proof.Machine
end

