-- ==== Sys2Proof/Machine/ShortFloat.lean ====
section
/-! DEFINITION. The decimal short-float transcoder (42_decimal_short_float.md) and the meanings of the 14 DS rows. -/

namespace Sys2Proof.Machine

/-- The scaled mantissa dy of a magnitude x and a decimal exponent e: x * 10^(-e), rounded once
(42_decimal_short_float.md R143, evaluated for e in -5 .. 8 only; elsewhere its number is the model's, log 18). -/
def dsScaled (x : Ratio) (e : Int) : Ratio := value (roundToBinary64 0#1 (x.mulPow10 (-e)))

/-- `DS_ENCODE(b)`: the DS word, or none for NOT_ELIGIBLE (42_decimal_short_float.md R146): the decimal exponent is in the
window, dy is an integer in 100 .. 999 (R144), and N * 10^e rounds back to the magnitude of b (R145). R140 asks for
a finite nonzero b with E ≤ 2045; what the same steps give for another b is the model's and ENCODE never asks for it
(log 18). -/
def dsEncode (b : Pattern) : Option Word :=
  let x := value b
  let e := x.ilog10 - 2
  if e < -5 ∨ 8 < e then none
  else
    let dy := dsScaled x e
    let N := dy.floor
    if dy.isInteger = false ∨ N < 100 ∨ 999 < N then none
    else if roundToBinary64 0#1 ((Ratio.ofNat N).mulPow10 e) ≠ assemble 0#1 (expField b) (fracField b) then none
    else some (dsWord (dsCode e) (signBit b) (BitVec.ofNat 10 N))

/-- The value of a DS word: M * 10^e, exact, rounded once, with the word's sign (42_decimal_short_float.md R150, R151), for
e in -5 .. 8; the same formula for another e is the model's and DECODE never asks for it (log 18). -/
def dsValue (e : Int) (sg : BitVec 1) (M : BitVec 10) : Pattern :=
  roundToBinary64 sg ((Ratio.ofNat M.toNat).mulPow10 e)

/-- `DS_DECODE(w)` for w in the DS class: the value of the word by its fields (42_decimal_short_float.md R149, R150). DESIGN
CHOICE: R149 gives no value for any other word; this total function reads the same fields there, so it ignores bit 15
and gives a word below 0x8000 the value of w | 0x8000, and DECODE never asks for it (log 18). -/
def dsDecode (w : Word) : Pattern :=
  dsValue (dsExponent (slice 11 4 w).toNat) (slice 10 1 w) (slice 0 10 w)

/-- DS_EM5: a one-word decimal value of exponent e = -5 (42_decimal_short_float.md R150). -/
def execDsEM5 (sg : BitVec 1) (M : BitVec 10) (s : State) : Host.Outcome State Fault Refusal :=
  .next (s.deliver (dsValue (-5) sg M) 1)

/-- DS_EM4: a one-word decimal value of exponent e = -4 (42_decimal_short_float.md R150). -/
def execDsEM4 (sg : BitVec 1) (M : BitVec 10) (s : State) : Host.Outcome State Fault Refusal :=
  .next (s.deliver (dsValue (-4) sg M) 1)

/-- DS_EM3: a one-word decimal value of exponent e = -3 (42_decimal_short_float.md R150). -/
def execDsEM3 (sg : BitVec 1) (M : BitVec 10) (s : State) : Host.Outcome State Fault Refusal :=
  .next (s.deliver (dsValue (-3) sg M) 1)

/-- DS_EM2: a one-word decimal value of exponent e = -2 (42_decimal_short_float.md R150). -/
def execDsEM2 (sg : BitVec 1) (M : BitVec 10) (s : State) : Host.Outcome State Fault Refusal :=
  .next (s.deliver (dsValue (-2) sg M) 1)

/-- DS_EM1: a one-word decimal value of exponent e = -1 (42_decimal_short_float.md R150). -/
def execDsEM1 (sg : BitVec 1) (M : BitVec 10) (s : State) : Host.Outcome State Fault Refusal :=
  .next (s.deliver (dsValue (-1) sg M) 1)

/-- DS_EP0: a one-word decimal value of exponent e = 0 (42_decimal_short_float.md R150). -/
def execDsEP0 (sg : BitVec 1) (M : BitVec 10) (s : State) : Host.Outcome State Fault Refusal :=
  .next (s.deliver (dsValue 0 sg M) 1)

/-- DS_EP1: a one-word decimal value of exponent e = 1 (42_decimal_short_float.md R150). -/
def execDsEP1 (sg : BitVec 1) (M : BitVec 10) (s : State) : Host.Outcome State Fault Refusal :=
  .next (s.deliver (dsValue 1 sg M) 1)

/-- DS_EP2: a one-word decimal value of exponent e = 2 (42_decimal_short_float.md R150). -/
def execDsEP2 (sg : BitVec 1) (M : BitVec 10) (s : State) : Host.Outcome State Fault Refusal :=
  .next (s.deliver (dsValue 2 sg M) 1)

/-- DS_EP3: a one-word decimal value of exponent e = 3 (42_decimal_short_float.md R150). -/
def execDsEP3 (sg : BitVec 1) (M : BitVec 10) (s : State) : Host.Outcome State Fault Refusal :=
  .next (s.deliver (dsValue 3 sg M) 1)

/-- DS_EP4: a one-word decimal value of exponent e = 4 (42_decimal_short_float.md R150). -/
def execDsEP4 (sg : BitVec 1) (M : BitVec 10) (s : State) : Host.Outcome State Fault Refusal :=
  .next (s.deliver (dsValue 4 sg M) 1)

/-- DS_EP5: a one-word decimal value of exponent e = 5 (42_decimal_short_float.md R150). -/
def execDsEP5 (sg : BitVec 1) (M : BitVec 10) (s : State) : Host.Outcome State Fault Refusal :=
  .next (s.deliver (dsValue 5 sg M) 1)

/-- DS_EP6: a one-word decimal value of exponent e = 6 (42_decimal_short_float.md R150). -/
def execDsEP6 (sg : BitVec 1) (M : BitVec 10) (s : State) : Host.Outcome State Fault Refusal :=
  .next (s.deliver (dsValue 6 sg M) 1)

/-- DS_EP7: a one-word decimal value of exponent e = 7 (42_decimal_short_float.md R150). -/
def execDsEP7 (sg : BitVec 1) (M : BitVec 10) (s : State) : Host.Outcome State Fault Refusal :=
  .next (s.deliver (dsValue 7 sg M) 1)

/-- DS_EP8: a one-word decimal value of exponent e = 8 (42_decimal_short_float.md R150). -/
def execDsEP8 (sg : BitVec 1) (M : BitVec 10) (s : State) : Host.Outcome State Fault Refusal :=
  .next (s.deliver (dsValue 8 sg M) 1)

end Sys2Proof.Machine
end

