-- ==== Sys2Proof/Machine/Special.lean ====
section
/-! DEFINITION. The special-value table (46_special_values.md) and the meanings of the five SP rows. -/

namespace Sys2Proof.Machine

/-- `SP_ENCODE(b)` for Classify(b) in ZERO, INF, NAN (46_special_values.md R241); every other class is a NaN's word here,
and ENCODE never asks for it (43_encoder_dispatch.md R171; log 18). -/
def spEncode (b : Pattern) : Word :=
  match classify b with
  | .zero => if signBit b = 0#1 then 0xFFF0#16 else 0xFFF1#16
  | .inf => if signBit b = 0#1 then 0xFFF2#16 else 0xFFF3#16
  | .nan => 0xFFF4#16
  | .normal => 0xFFF4#16
  | .subnormal => 0xFFF4#16

/-- `SP_DECODE(w)` for w in 0xFFF0 .. 0xFFF4: the third column of R240 (46_special_values.md R242). DESIGN CHOICE: the spec
gives no value for any other word; this total function gives 0xFFF4's there, and DECODE never asks for it (log 18). -/
def spDecode (w : Word) : Pattern :=
  if w = 0xFFF0#16 then 0x0000000000000000#64
  else if w = 0xFFF1#16 then 0x8000000000000000#64
  else if w = 0xFFF2#16 then 0x7FF0000000000000#64
  else if w = 0xFFF3#16 then 0xFFF0000000000000#64
  else Config.decodeNanBits

/-- SP_PZERO: the special scalar +0, one word (46_special_values.md R242). -/
def execSpPzero (s : State) : Host.Outcome State Fault Refusal :=
  .next (s.deliver 0x0000000000000000#64 1)

/-- SP_NZERO: the special scalar −0, one word (46_special_values.md R242). -/
def execSpNzero (s : State) : Host.Outcome State Fault Refusal :=
  .next (s.deliver 0x8000000000000000#64 1)

/-- SP_PINF: the special scalar +∞, one word (46_special_values.md R242). -/
def execSpPinf (s : State) : Host.Outcome State Fault Refusal :=
  .next (s.deliver 0x7FF0000000000000#64 1)

/-- SP_NINF: the special scalar −∞, one word (46_special_values.md R242). -/
def execSpNinf (s : State) : Host.Outcome State Fault Refusal :=
  .next (s.deliver 0xFFF0000000000000#64 1)

/-- SP_NAN: the special scalar NaN, one word (46_special_values.md R242). -/
def execSpNan (s : State) : Host.Outcome State Fault Refusal :=
  .next (s.deliver Config.decodeNanBits 1)

end Sys2Proof.Machine
end

