-- ==== Sys2Proof/Machine/Decoder.lean ====
section
/-! DEFINITION. The decoder dispatcher and the DECODE command (45_decoder_dispatch.md), and the meanings of the GB row, of the
forbidden lead words and of the continuation words. -/

namespace Sys2Proof.Machine

/-- DECODE once its lead word w is read: the dispatch on w's value alone, branch by branch as R210 writes it
(45_decoder_dispatch.md R210, R211). -/
def State.decodeLeadWord (w : Word) (s : State) : State :=
  if w.between 0xD800 0xDFFF then s.raise .illegalCodeUnit 0
  else if w.between 0xF800 0xF8FF then s.decodeMulti (.ni (slice 0 5 w)) (slice 7 1 w) (slice 5 2 w)
  else if w.between 0xFFF0 0xFFF4 then s.deliver (spDecode w) 1
  else if w.between 0xF900 0xFFFF then s.raise .illegalCodeUnit 0
  else if w.between 0x8000 0xFFFF then s.deliver (dsDecode w) 1
  else s.decodeMulti (.gb (slice 0 12 w)) (slice 12 1 w) (slice 13 2 w)

/-- DECODE: read the lead word at DEC_OFF, then go by its value (45_decoder_dispatch.md R210); where there is no lead word,
Truncated(0) (60_exceptions.md R301). -/
def execDecode (s : State) : Host.Outcome State Fault Refusal :=
  match s.readWord 0 with
  | none => .next (s.raise .truncated 0)
  | some w => .next (s.decodeLeadWord w)

/-- GB: the DECODE whose lead word this is reads L + 1 chunks and delivers M60 * 2^(X - 1083), rounded once
(45_decoder_dispatch.md R212, R213, R219). -/
def execGb (L : BitVec 2) (sg : BitVec 1) (X : BitVec 12) (s : State) : Host.Outcome State Fault Refusal :=
  .next (s.decodeMulti (.gb X) sg L)

/-- SUR: a surrogate lead word, IllegalCodeUnit(0) (60_exceptions.md R300). -/
def execSur (_w : Word) (s : State) : Host.Outcome State Fault Refusal :=
  .next (s.raise .illegalCodeUnit 0)

/-- RSV_F900: a reserved lead word, IllegalCodeUnit(0) (60_exceptions.md R300). -/
def execRsvF900 (_w : Word) (s : State) : Host.Outcome State Fault Refusal :=
  .next (s.raise .illegalCodeUnit 0)

/-- RSV_FA00: a reserved lead word, IllegalCodeUnit(0) (60_exceptions.md R300). -/
def execRsvFA00 (_w : Word) (s : State) : Host.Outcome State Fault Refusal :=
  .next (s.raise .illegalCodeUnit 0)

/-- RSV_FC00: a reserved lead word, IllegalCodeUnit(0) (60_exceptions.md R300). -/
def execRsvFC00 (_w : Word) (s : State) : Host.Outcome State Fault Refusal :=
  .next (s.raise .illegalCodeUnit 0)

/-- RSV_FE00: a reserved lead word, IllegalCodeUnit(0) (60_exceptions.md R300). -/
def execRsvFE00 (_w : Word) (s : State) : Host.Outcome State Fault Refusal :=
  .next (s.raise .illegalCodeUnit 0)

/-- RSV_FF00: a reserved lead word, IllegalCodeUnit(0) (60_exceptions.md R300). -/
def execRsvFF00 (_w : Word) (s : State) : Host.Outcome State Fault Refusal :=
  .next (s.raise .illegalCodeUnit 0)

/-- RSV_FF80: a reserved lead word, IllegalCodeUnit(0) (60_exceptions.md R300). -/
def execRsvFF80 (_w : Word) (s : State) : Host.Outcome State Fault Refusal :=
  .next (s.raise .illegalCodeUnit 0)

/-- RSV_FFC0: a reserved lead word, IllegalCodeUnit(0) (60_exceptions.md R300). -/
def execRsvFFC0 (_w : Word) (s : State) : Host.Outcome State Fault Refusal :=
  .next (s.raise .illegalCodeUnit 0)

/-- RSV_FFE0: a reserved lead word, IllegalCodeUnit(0) (60_exceptions.md R300). -/
def execRsvFFE0 (_w : Word) (s : State) : Host.Outcome State Fault Refusal :=
  .next (s.raise .illegalCodeUnit 0)

/-- RSV_FFF5: a reserved lead word, IllegalCodeUnit(0) (60_exceptions.md R300). -/
def execRsvFFF5 (s : State) : Host.Outcome State Fault Refusal :=
  .next (s.raise .illegalCodeUnit 0)

/-- RSV_FFF6: a reserved lead word, IllegalCodeUnit(0) (60_exceptions.md R300). -/
def execRsvFFF6 (_w : Word) (s : State) : Host.Outcome State Fault Refusal :=
  .next (s.raise .illegalCodeUnit 0)

/-- RSV_FFF8: a reserved lead word, IllegalCodeUnit(0) (60_exceptions.md R300). -/
def execRsvFFF8 (_w : Word) (s : State) : Host.Outcome State Fault Refusal :=
  .next (s.raise .illegalCodeUnit 0)

/-- CHUNK: the continuation word after the accepted ones joins M60, the last completing the value
(41_mantissa_packer.md R124, 30_encoding.md R74). Where no value is being read the word stands in the lead position,
where its value alone classifies it, so it is decoded as the lead word it is (30_encoding.md R71; log 9). -/
def execChunk (c : BitVec 15) (s : State) : Host.Outcome State Fault Refusal :=
  match s.decoding with
  | some p => .next (s.acceptChunk c p)
  | none => .next (s.decodeLeadWord (chunkWord c))

/-- CHUNK_ILLEGAL: a continuation word with bit 15 set is rejected at its index (45_decoder_dispatch.md R215). In the
lead position the word is decoded as the lead word it is (30_encoding.md R71; log 9). -/
def execChunkIllegal (w : Word) (s : State) : Host.Outcome State Fault Refusal :=
  match s.decoding with
  | some p => .next (s.raise .illegalCodeUnit (p.taken.val + 1))
  | none => .next (s.decodeLeadWord w)

end Sys2Proof.Machine
end

