-- ==== Sys2Proof/Machine/Encoder.lean ====
section
/-! DEFINITION. The encoder dispatcher and the ENCODE command (43_encoder_dispatch.md). -/

namespace Sys2Proof.Machine

/-- `GENERAL_BINARY`: the lead word with X = p + 1024, L = n - 1, and the chunks of Y (43_encoder_dispatch.md R176), for
p in -1024 .. 1022; elsewhere its words are the model's and ENCODE never asks for them (log 18). -/
def gbEncode (sg : BitVec 1) (p : Int) (Y : BitVec 60) : List Word :=
  let ds := pack Y
  gbWord (BitVec.ofNat 2 (ds.length - 1)) sg (BitVec.ofNat 12 (p + 1024).toNat) :: ds.map chunkWord

/-- The sequence of a finite nonzero b: near-infinity, then decimal, then general binary (43_encoder_dispatch.md R171). -/
def finiteSequence (b : Pattern) : List Word :=
  let pY := extract b
  if 1023 ≤ pY.1 then niEncode (signBit b) pY.1 pY.2
  else
    match dsEncode b with
    | some w => [w]
    | none => gbEncode (signBit b) pY.1 pY.2

/-- The code units of b: 1 to 5 words for every pattern (43_encoder_dispatch.md R170, R171). -/
def encodeSequence (b : Pattern) : List Word :=
  match classify b with
  | .zero => [spEncode b]
  | .nan => [spEncode b]
  | .inf => [spEncode b]
  | .normal => finiteSequence b
  | .subnormal => finiteSequence b

/-- ENCODE: the code units of ENC_IN into ENC_OUT and ENC_LEN (43_encoder_dispatch.md R170, R177); it never fails (R178). -/
def execEncode (s : State) : Host.Outcome State Fault Refusal :=
  .next (s.setEncoding (encodeSequence s.encIn))

end Sys2Proof.Machine
end

