-- ==== Sys2Proof/Machine/Dispatch.lean ====
section
/-! DEFINITION. The meaning of every instruction, one arm per constructor. -/

namespace Sys2Proof.Machine

def exec (i : Instr) (s : State) : Host.Outcome State Fault Refusal :=
  match i with
  | .encode => Sys2Proof.Machine.execEncode s
  | .decode => Sys2Proof.Machine.execDecode s
  | .gb L sg X => Sys2Proof.Machine.execGb L sg X s
  | .dsEM5 sg M => Sys2Proof.Machine.execDsEM5 sg M s
  | .dsEM4 sg M => Sys2Proof.Machine.execDsEM4 sg M s
  | .dsEM3 sg M => Sys2Proof.Machine.execDsEM3 sg M s
  | .dsEM2 sg M => Sys2Proof.Machine.execDsEM2 sg M s
  | .dsEM1 sg M => Sys2Proof.Machine.execDsEM1 sg M s
  | .dsEP0 sg M => Sys2Proof.Machine.execDsEP0 sg M s
  | .dsEP1 sg M => Sys2Proof.Machine.execDsEP1 sg M s
  | .dsEP2 sg M => Sys2Proof.Machine.execDsEP2 sg M s
  | .dsEP3 sg M => Sys2Proof.Machine.execDsEP3 sg M s
  | .dsEP4 sg M => Sys2Proof.Machine.execDsEP4 sg M s
  | .dsEP5 sg M => Sys2Proof.Machine.execDsEP5 sg M s
  | .dsEP6 sg M => Sys2Proof.Machine.execDsEP6 sg M s
  | .dsEP7 sg M => Sys2Proof.Machine.execDsEP7 sg M s
  | .dsEP8 sg M => Sys2Proof.Machine.execDsEP8 sg M s
  | .sur w => Sys2Proof.Machine.execSur w s
  | .ni sg L e5 => Sys2Proof.Machine.execNi sg L e5 s
  | .rsvF900 w => Sys2Proof.Machine.execRsvF900 w s
  | .rsvFA00 w => Sys2Proof.Machine.execRsvFA00 w s
  | .rsvFC00 w => Sys2Proof.Machine.execRsvFC00 w s
  | .rsvFE00 w => Sys2Proof.Machine.execRsvFE00 w s
  | .rsvFF00 w => Sys2Proof.Machine.execRsvFF00 w s
  | .rsvFF80 w => Sys2Proof.Machine.execRsvFF80 w s
  | .rsvFFC0 w => Sys2Proof.Machine.execRsvFFC0 w s
  | .rsvFFE0 w => Sys2Proof.Machine.execRsvFFE0 w s
  | .rsvFFF5 => Sys2Proof.Machine.execRsvFFF5 s
  | .rsvFFF6 w => Sys2Proof.Machine.execRsvFFF6 w s
  | .rsvFFF8 w => Sys2Proof.Machine.execRsvFFF8 w s
  | .spPzero => Sys2Proof.Machine.execSpPzero s
  | .spNzero => Sys2Proof.Machine.execSpNzero s
  | .spPinf => Sys2Proof.Machine.execSpPinf s
  | .spNinf => Sys2Proof.Machine.execSpNinf s
  | .spNan => Sys2Proof.Machine.execSpNan s
  | .chunk c => Sys2Proof.Machine.execChunk c s
  | .chunkIllegal w => Sys2Proof.Machine.execChunkIllegal w s

end Sys2Proof.Machine
end

