-- ==== Sys2Proof/Machine/Host.lean ====
section
/-! DEFINITION. The host's side of the port registers (10_state.md R22 to R24), its macros (30_encoding.md R85, R86) and reset
(70_reset_and_hazards.md R330). -/

namespace Sys2Proof.Machine

/-- `ENC_IN <- v`, held as written (10_state.md R24). -/
def State.setEncIn (v : Pattern) (s : State) : State := { s with encIn := v }

/-- `BUF_LEN <- v`, held as written (10_state.md R24). -/
def State.setBufLen (v : Off) (s : State) : State := { s with bufLen := v }

/-- `DEC_OFF <- v`, held as written (10_state.md R24). -/
def State.setDecOff (v : Off) (s : State) : State := { s with decOff := v }

/-- A word of BUF (20_memory.md R50). -/
def State.setWord (a : Nat) (w : Word) (s : State) : State := { s with buf := s.buf.write a w }

/-- The actions to come. -/
def State.setPending (q : List HostAction) (s : State) : State := { s with pending := q }

/-- A host write other than of CMD: operands are held as written, writes to result registers are ignored (10_state.md
R24), and an address outside BUF's address space does not exist (20_memory.md R50; log 11). -/
def hostWrite (h : HostWrite) (s : State) : Host.Outcome State Fault Refusal :=
  match h with
  | .encIn v => .next (s.setEncIn v)
  | .bufLen v => .next (s.setBufLen v)
  | .decOff v => .next (s.setDecOff v)
  | .readOnly _ _ => .next s
  | .buf a w => if a < 2 ^ Config.offWidth then .next (s.setWord a w) else .fault .noSuchBufAddress

/-- ENC_OUT[0..ENC_LEN-1], the last encoding (10_state.md R26). For ENC_LEN = 6 or 7, which R23 rules out, all five words are
the model's answer (log 18). -/
def State.encoding (s : State) : List Word := s.encOut.toList.take s.encLen.toNat

/-- `WBUF a+k, w_k` for the words in rising k (30_encoding.md R86). -/
def wbufs : Nat → List Word → List HostAction
  | _, [] => []
  | a, w :: ws => .write (.buf a w) :: wbufs (a + 1) ws

/-- `PUT a` expands to the writes of the last encoding (30_encoding.md R86). -/
def State.expandPut (a : Nat) (s : State) : List HostAction := wbufs a s.encoding

/-- The value `NEXT` writes: DEC_OFF + DEC_CONS, a free value where the sum does not fit DEC_OFF (30_encoding.md R86;
log 12). -/
def State.nextOff (s : State) : Off :=
  if h : s.decOff.toNat + s.decCons.toNat < 2 ^ Config.offWidth then BitVec.ofNatLT (s.decOff.toNat + s.decCons.toNat) h
  else Config.unfitOffset (s.decOff.toNat + s.decCons.toNat)

/-- Reset: every port register at its reset value, BUF's contents free anew; what the host will do next stays
(70_reset_and_hazards.md R330; log 10). -/
def State.hostReset (s : State) : State :=
  { State.reset with bufEpoch := s.bufEpoch + 1, pending := s.pending }

/-- What a host read of a port register returns, as an unsigned number; CMD reads as 0 (10_state.md R23, R24). No read
has a side effect (20_memory.md R60). -/
def hostRead (p : Port) (s : State) : Nat :=
  match p with
  | .cmd => 0
  | .encIn => s.encIn.toNat
  | .bufLen => s.bufLen.toNat
  | .decOff => s.decOff.toNat
  | .result (.encOut k) => (s.encOut[k.val]).toNat
  | .result .encLen => s.encLen.toNat
  | .result .decVal => s.decVal.toNat
  | .result .decCons => s.decCons.toNat
  | .result .decStatus => s.decStatus.toNat
  | .result .decErridx => s.decErridx.toNat

/-- `ENC v64`: write ENC_IN, then CMD = 0 (30_encoding.md R85). -/
def progEnc (v : Pattern) : List HostAction := [.write (.encIn v), .cmd 0#1]

/-- `DEC off`: write DEC_OFF, then CMD = 1 (30_encoding.md R85). -/
def progDecAt (off : Off) : List HostAction := [.write (.decOff off), .cmd 1#1]

/-- `DEC`: CMD = 1 at the current DEC_OFF (30_encoding.md R85). -/
def progDec : List HostAction := [.cmd 1#1]

/-- `LEN n` (30_encoding.md R85). -/
def progLen (n : Off) : List HostAction := [.write (.bufLen n)]

/-- `WBUF a, w` (30_encoding.md R85). -/
def progWbuf (a : Nat) (w : Word) : List HostAction := [.write (.buf a w)]

/-- The words of a bit string, the first in its low 16 bits (the numbering of opcode_table.json). -/
def wordsOf : Nat → Nat → List Word
  | 0, _ => []
  | n + 1, w => BitVec.ofNat 16 w :: wordsOf n (w / 2 ^ 16)

/-- BUF, BUF_LEN and DEC_OFF hold one value of five words, the longest there is, at address 0 (log 22). -/
def State.placeValue (ws : List Word) (s : State) : State :=
  { s with buf := s.buf.writeAll 0 ws, bufLen := Off.small 5 (by decide), decOff := Off.small 0 (by decide) }

end Sys2Proof.Machine
end

