-- ==== Sys2Proof/Machine/Step.lean ====
section
/-! DEFINITION. One step of the machine: the next action of the host, a command being one atomic step. -/

namespace Sys2Proof.Machine

/-- One step: the host's next action (10_state.md R22). A write of CMD runs the whole command it selects (30_encoding.md
R70, 20_memory.md R60); a macro is replaced by the actions it stands for (R86; log 13); with no action to come the block
does nothing (log 6). -/
def step (s : State) : Host.Outcome State Fault Refusal :=
  match s.pending with
  | [] => .next s
  | .cmd v :: rest => exec (decode (.cmd v)) (s.setPending rest)
  | .write h :: rest => hostWrite h (s.setPending rest)
  | .put a :: rest => .next (s.setPending (s.expandPut a ++ rest))
  | .next :: rest => .next (s.setPending (.write (.decOff s.nextOff) :: rest))
  | .reset :: rest => .next (s.setPending rest).hostReset

/-- The instruction of `nbits` bits w stored where the next step finds it: a CMD value as the host's next write; a value's
words at address 0 of BUF, zero above `nbits`, with BUF_LEN, DEC_OFF and a DECODE that reads it (log 6, log 22). -/
def State.withFetchWord (s : State) (nbits w : Nat) : State :=
  if nbits ≤ 8 then s.setPending (.cmd (BitVec.ofNat 1 w) :: s.pending)
  else (s.placeValue (wordsOf 5 (w % 2 ^ nbits))).setPending (.cmd 1#1 :: s.pending)

end Sys2Proof.Machine
end

