-- ==== Sys2Proof/Safety.lean ====
section
/-! DEFINITION. What counts as a legal state and a legal word, and the other terms the claims are stated in. -/

namespace Sys2Proof.Machine

/-- Surrogate band or reserved band: never emitted, not accepted as a lead word (30_encoding.md R71, R78, R79). -/
def Word.forbidden (w : Word) : Prop :=
  (0xD800 ≤ w.toNat ∧ w.toNat ≤ 0xDFFF) ∨ (0xF900 ≤ w.toNat ∧ w.toNat ≤ 0xFFEF) ∨ 0xFFF5 ≤ w.toNat

/-- The DS class (30_encoding.md R71). -/
def Word.decimal (w : Word) : Prop :=
  (0x8000 ≤ w.toNat ∧ w.toNat ≤ 0xD7FF) ∨ (0xE000 ≤ w.toNat ∧ w.toNat ≤ 0xF7FF)

/-- The number n of continuation words a lead word asks for, where it asks for any (30_encoding.md R83). -/
def Word.chunkCount (w : Word) : Option Nat :=
  if w.toNat < 0x8000 then some (w.toNat / 2 ^ 13 % 4 + 1)
  else if 0xF800 ≤ w.toNat ∧ w.toNat ≤ 0xF8FF then some (w.toNat / 2 ^ 5 % 4 + 1)
  else none

/-- The state with a host write of an existing address or register applied: an operand is held as written, a word of BUF is
replaced, a result register ignores the write (10_state.md R24, 20_memory.md R50). -/
def State.withWrite (h : HostWrite) (s : State) : State :=
  match h with
  | .encIn v => { s with encIn := v }
  | .bufLen v => { s with bufLen := v }
  | .decOff v => { s with decOff := v }
  | .readOnly _ _ => s
  | .buf a w => { s with buf := s.buf.write a w }

/-- What a DECODE that succeeds leaves (10_state.md R28, 45_decoder_dispatch.md R220). -/
def State.delivered (v : Pattern) (cons : Nat) (s : State) : State :=
  { s with decVal := v, decCons := BitVec.ofNat 3 cons, decStatus := 0#2, decErridx := 0#3, decoding := none }

/-- What a DECODE that stops at word k leaves, with status 1 for IllegalCodeUnit and 2 for Truncated (60_exceptions.md
R302). -/
def State.failed (status : BitVec 2) (k : Nat) (s : State) : State :=
  { s with decVal := 0#64, decCons := 0#3, decStatus := status, decErridx := BitVec.ofNat 3 k, decoding := none }

/-- Words 1 to n of the value at DEC_OFF are readable and hold the chunks `cs` (45_decoder_dispatch.md R214, R215). -/
def State.offersChunks (cs : List (BitVec 15)) (s : State) : Prop :=
  ∀ j (h : j < cs.length), s.readWord (j + 1) = some (chunkWord cs[j])

/-- The words `ws` stand from DEC_OFF on, wholly inside BUF. -/
def State.offersWords (ws : List Word) (s : State) : Prop :=
  ∀ j (h : j < ws.length), s.readWord j = some ws[j]

/-- `Σ c_k * 2^(60-15k)` over the chunks, numbered from k on (41_mantissa_packer.md R124). -/
def chunkSumFrom : Nat → List (BitVec 15) → Nat
  | _, [] => 0
  | k, c :: cs => c.toNat * 2 ^ (60 - 15 * k) + chunkSumFrom (k + 1) cs

/-- `M60 = Σ_{k=1..n} c_k * 2^(60-15k)` (41_mantissa_packer.md R124). -/
def chunkSum (cs : List (BitVec 15)) : Nat := chunkSumFrom 1 cs

/-- How many words of BUF a finished DECODE has read, from its results (45_decoder_dispatch.md R214). -/
def State.wordsRead (t : State) : Nat :=
  if t.decStatus = 0#2 then t.decCons.toNat
  else if t.decStatus = 1#2 then t.decErridx.toNat + 1
  else t.decErridx.toNat

/-- The rational number a `Ratio` stands for. -/
def Ratio.toRat (q : Ratio) : ℚ := (q.num : ℚ) / (q.den : ℚ)

/-- The least magnitude that rounds to infinity, 2^1024 * (1 - 2^-54) (44_near_infinity.md R193), as (2^54 - 1) * 2^970. -/
def overflowBound : ℚ := (2 ^ 54 - 1) * 2 ^ 970

/-- What every state between two steps satisfies: BUF is in canonical form inside its address space, no value is half
read, and every result register holds a value 10_state.md R23 calls legal. -/
structure State.Inv (s : State) : Prop where
  bufCanonical : Memory.wf s.buf
  bufInSpace : ∀ c ∈ s.buf, c.1 < 2 ^ Config.offWidth
  noneDecoding : s.decoding = none
  encLenLegal : s.encLen.toNat ≤ 5
  encOutLegal : ∀ k : Fin 5, ¬ Word.forbidden s.encOut[k]
  encOutRest : ∀ k : Fin 5, s.encLen.toNat ≤ k.val → s.encOut[k] = 0#16
  okLegal : s.decStatus = 0#2 → 1 ≤ s.decCons.toNat ∧ s.decCons.toNat ≤ 5 ∧ s.decErridx = 0#3
  failedLegal : s.decStatus = 1#2 ∨ s.decStatus = 2#2 →
    s.decVal = 0#64 ∧ s.decCons = 0#3 ∧ s.decErridx.toNat ≤ 4
  idleLegal : s.decStatus = 3#2 → s.decVal = 0#64 ∧ s.decCons = 0#3 ∧ s.decErridx = 0#3

end Sys2Proof.Machine
end

