-- ==== Sys2Proof/Certificates/Slice0/Obligations.lean ====
section
/-! DEFINITION. The statements of this package, each a proposition about the model and the rule of spec/ it formalises. -/

open Sys2Proof Sys2Proof.Machine

/-! ### Reset, the step and the host's side -/

/-- 70_reset_and_hazards.md R330: the port registers after reset, no word readable until the host sets BUF_LEN, and no
command leaves ENC_LEN = 0 or DEC_STATUS = IDLE. That BUF's "any 16-bit value" is the free value `Config.bufAtReset` at the
model's own counter is the model's form of the rule (log 3, DEDUCED; log 4, DESIGN CHOICE). -/
def Obligations.ResetState : Prop :=
  (State.reset.encIn = 0#64 ∧ (∀ k : Fin 5, State.reset.encOut[k] = 0#16) ∧ State.reset.encLen = 0#3 ∧
    State.reset.bufLen.toNat = 0 ∧ State.reset.decOff.toNat = 0 ∧ State.reset.decVal = 0#64 ∧
    State.reset.decCons = 0#3 ∧ State.reset.decStatus = 3#2 ∧ State.reset.decErridx = 0#3) ∧
  (∀ a, State.reset.memRead a = Config.bufAtReset State.reset.bufEpoch a) ∧
  (∀ (s : State) k, s.bufLen = State.reset.bufLen → s.readWord k = none) ∧
  (∀ s, ∃ t, exec .encode s = .next t ∧ t.encLen ≠ 0#3) ∧
  (∀ s, ∃ t, exec .decode s = .next t ∧ t.decStatus ≠ 3#2)

/-- The reset input puts every port register at its reset value whatever the state was, and leaves BUF free anew (the
model's choice of an input for reset: log 10; the values are R330's). -/
def Obligations.ResetInputResets : Prop :=
  ∀ s rest, s.pending = .reset :: rest →
    ∃ t, step s = .next t ∧ t.encIn = 0#64 ∧ (∀ k : Fin 5, t.encOut[k] = 0#16) ∧ t.encLen = 0#3 ∧
      t.bufLen.toNat = 0 ∧ t.decOff.toNat = 0 ∧ t.decVal = 0#64 ∧ t.decCons = 0#3 ∧ t.decStatus = 3#2 ∧
      t.decErridx = 0#3 ∧ t.decoding = none ∧ t.pending = rest ∧
      ∀ a, t.memRead a = Config.bufAtReset (s.bufEpoch + 1) a

/-- A step runs the decoded instruction: a waiting CMD value runs the command it decodes to, whole, on the state without
that write; and where the command is DECODE and the word at DEC_OFF decodes to the row i, the step is exec of i. The
queue of host actions is the model's (log 6). -/
def Obligations.StepRunsDecodedInstruction : Prop :=
  (∀ s v rest, s.pending = .cmd v :: rest → step s = exec (decode (.cmd v)) (s.setPending rest)) ∧
  (∀ s rest w, s.pending = .cmd 1#1 :: rest → s.readWord 0 = some w →
    step s = exec (decode (.lead w)) (s.setPending rest))

/-- 45_decoder_dispatch.md R211: DECODE with a lead word w is the meaning of the one row of the opcode table that w
belongs to; the dispatch uses only w's value. -/
def Obligations.DecodeRunsTheLeadWordsRow : Prop :=
  ∀ s w, s.readWord 0 = some w → exec .decode s = exec (decode (.lead w)) s

/-- 10_state.md R24: host writes to result registers are ignored; ENC_IN, BUF_LEN and DEC_OFF hold any value as
written; a host read of CMD returns 0. -/
def Obligations.HostRegisterWrites : Prop :=
  (∀ s rest r v, s.pending = .write (.readOnly r v) :: rest → step s = .next { s with pending := rest }) ∧
  (∀ s rest v, s.pending = .write (.encIn v) :: rest → step s = .next { s with encIn := v, pending := rest }) ∧
  (∀ s rest v, s.pending = .write (.bufLen v) :: rest → step s = .next { s with bufLen := v, pending := rest }) ∧
  (∀ s rest v, s.pending = .write (.decOff v) :: rest → step s = .next { s with decOff := v, pending := rest }) ∧
  (∀ s, hostRead .cmd s = 0)

/-- 20_memory.md R50, R58: a host write of a word of BUF is read back at its address, every other address and every
register reads as before; an address outside the address space stops the model (the model's choice of a stop: log 11). -/
def Obligations.HostWritesOneWord : Prop :=
  ∀ s rest a w, s.pending = .write (.buf a w) :: rest →
    (a < 2 ^ Config.offWidth →
      ∃ t, step s = .next t ∧ t.memRead a = w ∧ (∀ b, b ≠ a → t.memRead b = s.memRead b) ∧
        t = { s with buf := t.buf, pending := rest }) ∧
    (2 ^ Config.offWidth ≤ a → step s = .fault .noSuchBufAddress)

/-- 30_encoding.md R86: PUT a expands to WBUF a+k, ENC_OUT[k] for k = 0 .. ENC_LEN-1 in increasing k; NEXT expands to
DEC_OFF <- DEC_OFF + DEC_CONS (where the sum fits the register); a NEXT after a failed DECODE adds 0. -/
def Obligations.PutAndNextExpand : Prop :=
  (∀ s rest a, s.pending = .put a :: rest → s.encLen.toNat ≤ 5 →
    ∃ ws, step s = .next { s with pending := ws ++ rest } ∧ ws.length = s.encLen.toNat ∧
      ∀ (k : Fin 5) (h : k.val < ws.length), ws[k.val] = .write (.buf (a + k.val) s.encOut[k])) ∧
  (∀ s rest, s.pending = .next :: rest → s.decOff.toNat + s.decCons.toNat < 2 ^ Config.offWidth →
    ∃ v : Off, step s = .next { s with pending := .write (.decOff v) :: rest } ∧
      v.toNat = s.decOff.toNat + s.decCons.toNat) ∧
  (∀ s t, exec .decode s = .next t → t.decStatus ≠ 0#2 → t.nextOff = t.decOff)

/-- 20_memory.md R61, R60, for every host write h (ENC_IN, BUF_LEN, DEC_OFF, a word of BUF) and both commands c. A write made
before a CMD write is seen: its step applies it, and the command then runs on the state with it applied; an ENC_IN written
is what ENCODE encodes. A write made after a CMD write is not seen: every result the host reads after it, and all else,
is what the command leaves where that write is never made. The queue that orders them is the model's (log 6). -/
def Obligations.CommandSeesEarlierWritesOnly : Prop :=
  (∀ s h q, h.wf → s.pending = .write h :: q →
    step s = .next ((s.withWrite h).setPending q) ∧
    ∀ c rest, q = .cmd c :: rest →
      step ((s.withWrite h).setPending q) = exec (decode (.cmd c)) ((s.withWrite h).setPending rest)) ∧
  (∀ s v rest t1 t2, s.pending = .write (.encIn v) :: .cmd 0#1 :: rest → step s = .next t1 → step t1 = .next t2 →
    t2.encoding = encodeSequence v) ∧
  (∀ s c h rest, h.wf → s.pending = .cmd c :: .write h :: rest →
    ∃ u, exec (decode (.cmd c)) (s.setPending rest) = .next u ∧
      step s = .next (u.setPending (.write h :: rest)) ∧
      step (u.setPending (.write h :: rest)) = .next (u.withWrite h) ∧
      ∀ r, hostRead (.result r) (u.withWrite h) = hostRead (.result r) u)

/-- The model's invariant holds after reset (10_state.md R23's legal values; the canonical form of BUF is the model's,
log 5). -/
def Obligations.ResetMeetsInv : Prop := State.reset.Inv

/-- Every step keeps the invariant: BUF stays canonical and inside its address space, no command leaves a value half
read, and the result registers stay at legal values (10_state.md R23). -/
def Obligations.EveryStepKeepsInv : Prop :=
  ∀ s t, s.Inv → step s = .next t → t.Inv

/-- No instruction stops: errors are results (60_exceptions.md R302, R305; 43_encoder_dispatch.md R178). -/
def Obligations.EveryInstructionAnswersNext : Prop :=
  ∀ i s, ∃ t, exec i s = .next t

/-! ### The encoding of commands and code units -/

/-- Decoding the code word of a well-formed instruction gives the instruction back, every operand at every value. -/
def Obligations.DecodeOfEncode : Prop :=
  ∀ i : Instr, i.wf = true → decode (encode i) = i

/-- Every code word, in its position, belongs to one row and is that row's encoding: no bit of it is dropped. -/
def Obligations.EncodeOfDecode : Prop :=
  ∀ c : CodeWord, encode (decode c) = c ∧ (decode c).wf = true

/-- A few words written out from the spec's encodings decode to the instructions they stand for. -/
def Obligations.SampleWordsDecode : Prop :=
  decode (.cmd 0#1) = .encode ∧ decode (.cmd 1#1) = .decode ∧
  decode (.lead 0x6401#16) = .gb 3#2 0#1 1025#12 ∧ decode (.lead 0x8968#16) = .dsEM4 0#1 360#10 ∧
  decode (.lead 0xF7FF#16) = .dsEP8 1#1 1023#10 ∧ decode (.lead 0xD900#16) = .sur 0xD900#16 ∧
  decode (.lead 0xF8E2#16) = .ni 1#1 3#2 2#5 ∧ decode (.lead 0xFFEF#16) = .rsvFFE0 0xFFEF#16 ∧
  decode (.lead 0xFFF4#16) = .spNan ∧ decode (.cont 0x7FFF#16) = .chunk 0x7FFF#15 ∧
  decode (.cont 0x8000#16) = .chunkIllegal 0x8000#16

/-! ### Exact arithmetic and the internal units -/

/-- 00_scope.md R13: RoundToBinary64 keeps the sign and gives the nearest finite value, ties to the even significand;
magnitudes that round past the largest finite one become infinity. -/
def Obligations.RoundingIsNearestEven : Prop :=
  ∀ sg (q : Ratio),
    signBit (roundToBinary64 sg q) = sg ∧
    (q.toRat < overflowBound →
      expField (roundToBinary64 sg q) ≠ 2047 ∧
      ∀ b, expField b ≠ 2047 →
        |(value (roundToBinary64 sg q)).toRat - q.toRat| ≤ |(value b).toRat - q.toRat| ∧
        (|(value (roundToBinary64 sg q)).toRat - q.toRat| = |(value b).toRat - q.toRat| →
          (value b).toRat ≠ (value (roundToBinary64 sg q)).toRat →
          fracField (roundToBinary64 sg q) % 2 = 0)) ∧
    (overflowBound ≤ q.toRat → classify (roundToBinary64 sg q) = .inf)

/-- 40_exponent_extractor.md R100: for a finite nonzero b, -1024 ≤ p ≤ 1023, 0 < Y < 2^60 and
Value(b) = Y * 2^(p+1-60) exactly; the sign bit is ignored. -/
def Obligations.ExtractIsExact : Prop :=
  ∀ b, classify b = .normal ∨ classify b = .subnormal →
    -1024 ≤ (extract b).1 ∧ (extract b).1 ≤ 1023 ∧ 0 < (extract b).2.toNat ∧
    (value b).toRat = ((extract b).2.toNat : ℚ) * (2 : ℚ) ^ ((extract b).1 + 1 - 60) ∧
    extract (b ^^^ 0x8000000000000000#64) = extract b

/-- 40_exponent_extractor.md R105: the properties of Y by class and exponent. -/
def Obligations.ExtractedFractionShape : Prop :=
  ∀ b, (classify b = .normal →
      2 ^ 59 ≤ (extract b).2.toNat ∧ (extract b).2.toNat % 2 ^ 7 = 0) ∧
    (classify b = .subnormal → (extract b).1 = -1023 →
      2 ^ 59 ≤ (extract b).2.toNat ∧ (extract b).2.toNat % 2 ^ 8 = 0) ∧
    (classify b = .subnormal → (extract b).1 = -1024 →
      2 ^ 9 ≤ (extract b).2.toNat ∧ (extract b).2.toNat % 2 ^ 9 = 0) ∧
    (classify b = .subnormal → (extract b).1 = -1023 ∨ (extract b).1 = -1024)

/-- 40_exponent_extractor.md R103: p ≥ 1023 is exactly E = 2046; otherwise X = p + 1024 is E + 1 for a normal b, and for
a subnormal b it is 1 when msb(F) = 51 and 0 otherwise. -/
def Obligations.ExtractHandsOffTheTopBinade : Prop :=
  ∀ b, classify b = .normal ∨ classify b = .subnormal →
    (1023 ≤ (extract b).1 ↔ expField b = 2046) ∧
    (1023 ≤ (extract b).1 → (extract b).1 = 1023) ∧
    (classify b = .normal → (extract b).1 + 1024 = (expField b : Int) + 1) ∧
    (classify b = .subnormal → (extract b).1 + 1024 = if 2 ^ 51 ≤ fracField b then 1 else 0)

/-- 41_mantissa_packer.md R121: d_k = Y[74-15k : 60-15k], and n is the index of the last nonzero digit. -/
def Obligations.PackGivesTheDigits : Prop :=
  ∀ Y : BitVec 60, Y ≠ 0#60 →
    1 ≤ (pack Y).length ∧ (pack Y).length ≤ 4 ∧
    (∀ k (h : k < (pack Y).length), (pack Y)[k].toNat = Y.toNat / 2 ^ (45 - 15 * k) % 2 ^ 15) ∧
    (∀ k, (pack Y).length ≤ k → k < 4 → Y.toNat / 2 ^ (45 - 15 * k) % 2 ^ 15 = 0) ∧
    (∀ k (h : k < (pack Y).length), k + 1 = (pack Y).length → (pack Y)[k] ≠ 0#15)

/-- 41_mantissa_packer.md R126: UNPACK(PACK(Y)) = Y for every Y with 0 < Y < 2^60. -/
def Obligations.UnpackOfPack : Prop :=
  ∀ Y : BitVec 60, Y ≠ 0#60 → unpack (pack Y) = Y

/-- 41_mantissa_packer.md R124: M60 is the sum of c_k * 2^(60-15k), and so below 2^60. -/
def Obligations.UnpackIsTheSum : Prop :=
  ∀ cs : List (BitVec 15), 1 ≤ cs.length → cs.length ≤ 4 → (unpack cs).toNat = chunkSum cs

/-! ### ENCODE -/

/-- 43_encoder_dispatch.md R177 to R179: ENCODE answers for every state, with 1 to 5 words; each of them is below 0x8000,
or a DS word with M in 100 .. 999, or in 0xF800–0xF8FF, or in 0xFFF0–0xFFF4, so none is forbidden; the registers beyond
ENC_LEN hold 0x0000. -/
def Obligations.EncodeEmitsLegalWords : Prop :=
  ∀ s, ∃ t, exec .encode s = .next t ∧ 1 ≤ t.encLen.toNat ∧ t.encLen.toNat ≤ 5 ∧
    (∀ k : Fin 5, k.val < t.encLen.toNat →
      ((t.encOut[k]).toNat < 0x8000 ∨
        (Word.decimal t.encOut[k] ∧ 100 ≤ (t.encOut[k]).toNat % 2 ^ 10 ∧ (t.encOut[k]).toNat % 2 ^ 10 ≤ 999) ∨
        (0xF800 ≤ (t.encOut[k]).toNat ∧ (t.encOut[k]).toNat ≤ 0xF8FF) ∨
        (0xFFF0 ≤ (t.encOut[k]).toNat ∧ (t.encOut[k]).toNat ≤ 0xFFF4)) ∧
      ¬ Word.forbidden t.encOut[k]) ∧
    (∀ k : Fin 5, t.encLen.toNat ≤ k.val → t.encOut[k] = 0#16)

/-- The frame of ENCODE and its one operand: it writes ENC_OUT and ENC_LEN only, every word of BUF reads as before, and
equal ENC_IN give equal ENC_OUT and ENC_LEN (10_state.md R31, R32; 43_encoder_dispatch.md R181). -/
def Obligations.EncodeFrame : Prop :=
  (∀ s t, exec .encode s = .next t →
    t = { s with encOut := t.encOut, encLen := t.encLen } ∧ ∀ a, t.memRead a = s.memRead a) ∧
  (∀ s s' t t', s.encIn = s'.encIn → exec .encode s = .next t → exec .encode s' = .next t' →
    t.encOut = t'.encOut ∧ t.encLen = t'.encLen)

/-- 43_encoder_dispatch.md R172, R173: the one word of ±0, of any NaN and of ±∞. -/
def Obligations.EncodeSpecialValues : Prop :=
  ∀ s,
    (s.encIn = 0x0000000000000000#64 →
      exec .encode s = .next { s with encOut := #v[0xFFF0#16, 0#16, 0#16, 0#16, 0#16], encLen := 1#3 }) ∧
    (s.encIn = 0x8000000000000000#64 →
      exec .encode s = .next { s with encOut := #v[0xFFF1#16, 0#16, 0#16, 0#16, 0#16], encLen := 1#3 }) ∧
    (s.encIn = 0x7FF0000000000000#64 →
      exec .encode s = .next { s with encOut := #v[0xFFF2#16, 0#16, 0#16, 0#16, 0#16], encLen := 1#3 }) ∧
    (s.encIn = 0xFFF0000000000000#64 →
      exec .encode s = .next { s with encOut := #v[0xFFF3#16, 0#16, 0#16, 0#16, 0#16], encLen := 1#3 }) ∧
    (expField s.encIn = 2047 → fracField s.encIn ≠ 0 →
      exec .encode s = .next { s with encOut := #v[0xFFF4#16, 0#16, 0#16, 0#16, 0#16], encLen := 1#3 })

/-- 43_encoder_dispatch.md R176: a finite nonzero b below the top binade that is not decimal-eligible becomes the lead
word {0:1, L:2, s:1, X:12} and the chunks of PACK, with L = n - 1, X = p + 1024 in 0 .. 2046 and ENC_LEN = n + 1 in
2 .. 5; and the words carry its value exactly. -/
def Obligations.EncodeGeneralBinary : Prop :=
  ∀ s, (classify s.encIn = .normal ∨ classify s.encIn = .subnormal) → expField s.encIn ≠ 2046 →
    dsEncode s.encIn = none →
    ∃ t L X, exec .encode s = .next t ∧
      t.encoding = gbWord L (signBit s.encIn) X :: (pack (extract s.encIn).2).map chunkWord ∧
      (pack (extract s.encIn).2).length = L.toNat + 1 ∧
      (X.toNat : Int) = (extract s.encIn).1 + 1024 ∧ X.toNat ≤ 2046 ∧
      t.encLen.toNat = L.toNat + 2 ∧
      (value s.encIn).toRat =
        (chunkSum (pack (extract s.encIn).2) : ℚ) * (2 : ℚ) ^ ((X.toNat : Int) - 1083)

/-- 44_near_infinity.md R190: a top-binade value becomes the NI lead word with e5 = 2 and the chunks of PACK; the words
carry its value exactly. -/
def Obligations.EncodeNearInfinity : Prop :=
  ∀ s, expField s.encIn = 2046 →
    ∃ t L, exec .encode s = .next t ∧
      t.encoding = niWord (signBit s.encIn) L 2#5 :: (pack (extract s.encIn).2).map chunkWord ∧
      (pack (extract s.encIn).2).length = L.toNat + 1 ∧ t.encLen.toNat = L.toNat + 2 ∧
      (value s.encIn).toRat = (chunkSum (pack (extract s.encIn).2) : ℚ) * (2 : ℚ) ^ (964 : Int)

/-- 44_near_infinity.md R191: the lead words emitted for the top binade are exactly the eight words
0xF800 | s*0x80 | L*0x20 | 2, and the first chunk lies in 0x4000 .. 0x7FFF. -/
def Obligations.NearInfinityLeadWords : Prop :=
  (∀ s t, expField s.encIn = 2046 → exec .encode s = .next t →
    (∃ L, L ≤ 3 ∧ (t.encOut[0]).toNat = 0xF800 + (signBit s.encIn).toNat * 0x80 + L * 0x20 + 2) ∧
    0x4000 ≤ (t.encOut[1]).toNat ∧ (t.encOut[1]).toNat ≤ 0x7FFF) ∧
  (∀ (sg : BitVec 1) (L : Nat), L ≤ 3 → ∃ s t, expField s.encIn = 2046 ∧ signBit s.encIn = sg ∧
    exec .encode s = .next t ∧ (t.encOut[0]).toNat = 0xF800 + sg.toNat * 0x80 + L * 0x20 + 2)

/-- 44_near_infinity.md R194: ENCODE never emits a GB lead word with X ≥ 2047; one with X = 2047 decodes to the value of
the NI form. -/
def Obligations.NoGeneralBinaryLeadAbove2046 : Prop :=
  (∀ s t, exec .encode s = .next t → (t.encOut[0]).toNat < 0x8000 → (t.encOut[0]).toNat % 2 ^ 12 ≤ 2046) ∧
  (∀ sg m60, multiValue (.gb 2047#12) sg m60 = multiValue (.ni 2#5) sg m60)

/-- 43_encoder_dispatch.md R175, 42_decimal_short_float.md R147: a decimal-eligible operand becomes its one DS word, which
lies in the DS class with E4 neither 11 nor 15 and 100 ≤ M ≤ 999. -/
def Obligations.EncodeDecimal : Prop :=
  (∀ b w, dsEncode b = some w →
    Word.decimal w ∧ w.toNat / 2 ^ 11 % 2 ^ 4 ≠ 11 ∧ w.toNat / 2 ^ 11 % 2 ^ 4 ≠ 15 ∧
      100 ≤ w.toNat % 2 ^ 10 ∧ w.toNat % 2 ^ 10 ≤ 999) ∧
  (∀ s w, (classify s.encIn = .normal ∨ classify s.encIn = .subnormal) → expField s.encIn ≠ 2046 →
    dsEncode s.encIn = some w →
    exec .encode s = .next { s with encOut := #v[w, 0#16, 0#16, 0#16, 0#16], encLen := 1#3 })

/-- The verification of 42_decimal_short_float.md R145 does its work: the DS word of an eligible operand decodes to that
operand, bit for bit. -/
def Obligations.DecimalWordDecodesToItsOperand : Prop :=
  ∀ b w, dsEncode b = some w → dsDecode w = b

/-- The first sentence of 42_decimal_short_float.md R148: b is eligible iff it is the rounding of N * 10^e for some
N in 100 .. 999 and e in -5 .. 8 and the dy check of R144 passes for it; (N, e) is then unique. -/
def Obligations.DecimalEligibility : Prop :=
  ∀ b, (classify b = .normal ∨ classify b = .subnormal) → expField b ≤ 2045 →
    ((dsEncode b ≠ none ↔
      ((∃ (N : Nat) (e : Int), 100 ≤ N ∧ N ≤ 999 ∧ -5 ≤ e ∧ e ≤ 8 ∧
          b = roundToBinary64 (signBit b) ((Ratio.ofNat N).mulPow10 e)) ∧
        -5 ≤ (value b).ilog10 - 2 ∧ (value b).ilog10 - 2 ≤ 8 ∧
        (dsScaled (value b) ((value b).ilog10 - 2)).isInteger = true ∧
        100 ≤ (dsScaled (value b) ((value b).ilog10 - 2)).floor ∧
        (dsScaled (value b) ((value b).ilog10 - 2)).floor ≤ 999)) ∧
    (∀ (N N' : Nat) (e e' : Int), 100 ≤ N → N ≤ 999 → 100 ≤ N' → N' ≤ 999 → -5 ≤ e → e ≤ 8 → -5 ≤ e' → e' ≤ 8 →
      b = roundToBinary64 (signBit b) ((Ratio.ofNat N).mulPow10 e) →
      b = roundToBinary64 (signBit b) ((Ratio.ofNat N').mulPow10 e') → N = N' ∧ e = e'))

/-! ### DECODE and the lead-word rows -/

/-- GB (45_decoder_dispatch.md R213): with its chunks readable, the value M60 * 2^(X - 1083) rounded once, M60 being the
sum of R124, is delivered with 2 + L words consumed; nothing else changes. -/
def Obligations.GbDeliversItsValue : Prop :=
  ∀ L sg X s cs, cs.length = L.toNat + 1 → s.offersChunks cs →
    exec (.gb L sg X) s =
      .next (s.delivered (roundToBinary64 sg ((Ratio.ofNat (chunkSum cs)).mulPow2 ((X.toNat : Int) - 1083)))
        (2 + L.toNat))

/-- NI (44_near_infinity.md R192): with its chunks readable, the value M60 * 2^(e5 + 962) rounded once is delivered with
2 + L words consumed; nothing else changes. -/
def Obligations.NiDeliversItsValue : Prop :=
  ∀ sg L e5 s cs, cs.length = L.toNat + 1 → s.offersChunks cs →
    exec (.ni sg L e5) s =
      .next (s.delivered (roundToBinary64 sg ((Ratio.ofNat (chunkSum cs)).mulPow2 ((e5.toNat : Int) + 962)))
        (2 + L.toNat))

/-- The 14 DS rows (42_decimal_short_float.md R150): M * 10^e rounded once, one word consumed; nothing else changes. -/
def Obligations.DsRowsDeliverTheirValue : Prop :=
  ∀ (sg : BitVec 1) (M : BitVec 10) (s : State),
    exec (.dsEM5 sg M) s = .next (s.delivered (roundToBinary64 sg ((Ratio.ofNat M.toNat).mulPow10 (-5))) 1) ∧
    exec (.dsEM4 sg M) s = .next (s.delivered (roundToBinary64 sg ((Ratio.ofNat M.toNat).mulPow10 (-4))) 1) ∧
    exec (.dsEM3 sg M) s = .next (s.delivered (roundToBinary64 sg ((Ratio.ofNat M.toNat).mulPow10 (-3))) 1) ∧
    exec (.dsEM2 sg M) s = .next (s.delivered (roundToBinary64 sg ((Ratio.ofNat M.toNat).mulPow10 (-2))) 1) ∧
    exec (.dsEM1 sg M) s = .next (s.delivered (roundToBinary64 sg ((Ratio.ofNat M.toNat).mulPow10 (-1))) 1) ∧
    exec (.dsEP0 sg M) s = .next (s.delivered (roundToBinary64 sg ((Ratio.ofNat M.toNat).mulPow10 0)) 1) ∧
    exec (.dsEP1 sg M) s = .next (s.delivered (roundToBinary64 sg ((Ratio.ofNat M.toNat).mulPow10 1)) 1) ∧
    exec (.dsEP2 sg M) s = .next (s.delivered (roundToBinary64 sg ((Ratio.ofNat M.toNat).mulPow10 2)) 1) ∧
    exec (.dsEP3 sg M) s = .next (s.delivered (roundToBinary64 sg ((Ratio.ofNat M.toNat).mulPow10 3)) 1) ∧
    exec (.dsEP4 sg M) s = .next (s.delivered (roundToBinary64 sg ((Ratio.ofNat M.toNat).mulPow10 4)) 1) ∧
    exec (.dsEP5 sg M) s = .next (s.delivered (roundToBinary64 sg ((Ratio.ofNat M.toNat).mulPow10 5)) 1) ∧
    exec (.dsEP6 sg M) s = .next (s.delivered (roundToBinary64 sg ((Ratio.ofNat M.toNat).mulPow10 6)) 1) ∧
    exec (.dsEP7 sg M) s = .next (s.delivered (roundToBinary64 sg ((Ratio.ofNat M.toNat).mulPow10 7)) 1) ∧
    exec (.dsEP8 sg M) s = .next (s.delivered (roundToBinary64 sg ((Ratio.ofNat M.toNat).mulPow10 8)) 1)

/-- 46_special_values.md R242: the five special words deliver the patterns of R240's third column, one word consumed;
nothing else changes. DECODE_NAN_BITS stands for the constant of Config (log 2). -/
def Obligations.SpRowsDeliverTheirScalar : Prop :=
  ∀ s : State,
    exec .spPzero s = .next (s.delivered 0x0000000000000000#64 1) ∧
    exec .spNzero s = .next (s.delivered 0x8000000000000000#64 1) ∧
    exec .spPinf s = .next (s.delivered 0x7FF0000000000000#64 1) ∧
    exec .spNinf s = .next (s.delivered 0xFFF0000000000000#64 1) ∧
    exec .spNan s = .next (s.delivered Config.decodeNanBits 1) ∧
    classify Config.decodeNanBits = .nan

/-- 60_exceptions.md R300, R302: a surrogate or reserved lead word ends the DECODE with IllegalCodeUnit(0); nothing else
changes. -/
def Obligations.ForbiddenLeadRowsRaise : Prop :=
  ∀ (w : Word) (s : State),
    exec (.sur w) s = .next (s.failed 1#2 0) ∧
    exec (.rsvF900 w) s = .next (s.failed 1#2 0) ∧ exec (.rsvFA00 w) s = .next (s.failed 1#2 0) ∧
    exec (.rsvFC00 w) s = .next (s.failed 1#2 0) ∧ exec (.rsvFE00 w) s = .next (s.failed 1#2 0) ∧
    exec (.rsvFF00 w) s = .next (s.failed 1#2 0) ∧ exec (.rsvFF80 w) s = .next (s.failed 1#2 0) ∧
    exec (.rsvFFC0 w) s = .next (s.failed 1#2 0) ∧ exec (.rsvFFE0 w) s = .next (s.failed 1#2 0) ∧
    exec .rsvFFF5 s = .next (s.failed 1#2 0) ∧ exec (.rsvFFF6 w) s = .next (s.failed 1#2 0) ∧
    exec (.rsvFFF8 w) s = .next (s.failed 1#2 0)

/-- CHUNK and CHUNK_ILLEGAL (41_mantissa_packer.md R124, 45_decoder_dispatch.md R215), in the model's partly read value
(log 7): a chunk adds c * 2^(60-15k) to M60 as its k-th chunk, the last one delivers the value, and a word with bit 15
set ends the DECODE with IllegalCodeUnit(k). Where no value is being read, the word is the lead word its bits make
(log 9). -/
def Obligations.ContinuationRows : Prop :=
  (∀ c s p, s.decoding = some p → p.m60.toNat % 2 ^ (60 - 15 * p.taken.val) = 0 →
    (p.taken.val < p.len.toNat → ∃ m : BitVec 60, m.toNat = p.m60.toNat + c.toNat * 2 ^ (60 - 15 * (p.taken.val + 1)) ∧
      exec (.chunk c) s = .next { s with decoding := some { p with taken := p.taken + 1, m60 := m } }) ∧
    (p.taken.val = p.len.toNat → ∃ m : BitVec 60, m.toNat = p.m60.toNat + c.toNat * 2 ^ (60 - 15 * (p.taken.val + 1)) ∧
      exec (.chunk c) s = .next (s.delivered (multiValue p.kind p.sg m) (2 + p.len.toNat)))) ∧
  (∀ w s p, s.decoding = some p → exec (.chunkIllegal w) s = .next (s.failed 1#2 (p.taken.val + 1))) ∧
  (∀ c s, s.decoding = none → exec (.chunk c) s = exec (decode (.lead (chunkWord c))) s) ∧
  (∀ w s, s.decoding = none → exec (.chunkIllegal w) s = exec (decode (.lead w)) s)

/-- DECODE completes with its value (45_decoder_dispatch.md R210, R216, R220): a DS or SP lead word at once; a GB or NI lead
word with its n chunks readable. The value is that of R150, R240, R213 and R192. -/
def Obligations.DecodeDeliversItsValue : Prop :=
  ∀ s w, s.readWord 0 = some w →
    (Word.decimal w → exec .decode s = .next (s.delivered (roundToBinary64 (BitVec.ofNat 1 (w.toNat / 2 ^ 10 % 2))
        ((Ratio.ofNat (w.toNat % 2 ^ 10)).mulPow10 (dsExponent (w.toNat / 2 ^ 11 % 2 ^ 4)))) 1)) ∧
    (w = 0xFFF0#16 → exec .decode s = .next (s.delivered 0x0000000000000000#64 1)) ∧
    (w = 0xFFF1#16 → exec .decode s = .next (s.delivered 0x8000000000000000#64 1)) ∧
    (w = 0xFFF2#16 → exec .decode s = .next (s.delivered 0x7FF0000000000000#64 1)) ∧
    (w = 0xFFF3#16 → exec .decode s = .next (s.delivered 0xFFF0000000000000#64 1)) ∧
    (w = 0xFFF4#16 → exec .decode s = .next (s.delivered Config.decodeNanBits 1)) ∧
    (w.toNat < 0x8000 → ∀ cs, Word.chunkCount w = some cs.length → s.offersChunks cs →
      exec .decode s = .next (s.delivered (roundToBinary64 (BitVec.ofNat 1 (w.toNat / 2 ^ 12 % 2))
        ((Ratio.ofNat (chunkSum cs)).mulPow2 ((w.toNat % 2 ^ 12 : Nat) - 1083 : Int))) (1 + cs.length))) ∧
    (0xF800 ≤ w.toNat → w.toNat ≤ 0xF8FF → ∀ cs, Word.chunkCount w = some cs.length → s.offersChunks cs →
      exec .decode s = .next (s.delivered (roundToBinary64 (BitVec.ofNat 1 (w.toNat / 2 ^ 7 % 2))
        ((Ratio.ofNat (chunkSum cs)).mulPow2 ((w.toNat % 2 ^ 5 : Nat) + 962 : Int))) (1 + cs.length)))

/-- 60_exceptions.md R301 to R303, 45_decoder_dispatch.md R215: DECODE stops at the first word, in index order, that fails
its check; at one index Truncated comes before IllegalCodeUnit; it then writes what R302 says and nothing else. -/
def Obligations.DecodeStopsAtFirstFailingWord : Prop :=
  ∀ s,
    (s.bufLen.toNat ≤ s.decOff.toNat → exec .decode s = .next (s.failed 2#2 0)) ∧
    (∀ w, s.readWord 0 = some w → Word.forbidden w → exec .decode s = .next (s.failed 1#2 0)) ∧
    (∀ w n k, s.readWord 0 = some w → Word.chunkCount w = some n → 1 ≤ k → k ≤ n →
      (∀ j, 1 ≤ j → j < k → ∃ v, s.readWord j = some v ∧ v.toNat < 0x8000) →
      (s.bufLen.toNat ≤ s.decOff.toNat + k → exec .decode s = .next (s.failed 2#2 k)) ∧
      (∀ v, s.readWord k = some v → 0x8000 ≤ v.toNat → exec .decode s = .next (s.failed 1#2 k)))

/-- 20_memory.md R59: word k of a value is at DEC_OFF + k; that sum is compared with BUF_LEN as an integer and never wraps to a low address. -/
def Obligations.AddressSumsNeverWrap : Prop :=
  ∀ (s : State) k, (s.readWord k ≠ none ↔ s.decOff.toNat + k < s.bufLen.toNat) ∧
    (∀ w, s.readWord k = some w → w = s.memRead (s.decOff.toNat + k)) ∧
    (2 ^ Config.offWidth ≤ s.decOff.toNat + k → s.readWord k = none)

/-- 45_decoder_dispatch.md R216: on success DEC_CONS is 1 for DS and SP lead words and 2 + L for GB and NI lead words, and it
is the number of words the command read. Each of the words 0 .. DEC_CONS - 1 is readable; a state that offers the same
DEC_CONS words, whatever else it holds, gives the same results; and every one of them is needed: where word k is the
first that is not there, the DECODE ends with Truncated(k). -/
def Obligations.ConsumedLength : Prop :=
  ∀ s t, exec .decode s = .next t → t.decStatus = 0#2 →
    1 ≤ t.decCons.toNat ∧ t.decCons.toNat ≤ 5 ∧
    (∀ k, k < t.decCons.toNat → s.readWord k ≠ none) ∧
    (∀ s' t', (∀ k, k < t.decCons.toNat → s'.readWord k = s.readWord k) → exec .decode s' = .next t' →
      t'.decVal = t.decVal ∧ t'.decCons = t.decCons ∧ t'.decStatus = t.decStatus ∧ t'.decErridx = t.decErridx) ∧
    (∀ s' k, k < t.decCons.toNat → (∀ j, j < k → s'.readWord j = s.readWord j) → s'.readWord k = none →
      exec .decode s' = .next (s'.failed 2#2 k)) ∧
    ∃ w, s.readWord 0 = some w ∧
      match Word.chunkCount w with
      | some n => t.decCons.toNat = 1 + n
      | none => (Word.decimal w ∨ (0xFFF0 ≤ w.toNat ∧ w.toNat ≤ 0xFFF4)) ∧ t.decCons.toNat = 1

/-- 10_state.md R31, 45_decoder_dispatch.md R214, R217: a DECODE's results depend only on DEC_OFF, BUF_LEN and the words it
reads. Two states that agree on those, whatever else they hold, give equal results. -/
def Obligations.DecodeDependsOnlyOnWordsRead : Prop :=
  ∀ s s' t t', exec .decode s = .next t → exec .decode s' = .next t' →
    s.decOff = s'.decOff → s.bufLen = s'.bufLen →
    (∀ k, k < t.wordsRead → s.memRead (s.decOff.toNat + k) = s'.memRead (s.decOff.toNat + k)) →
    t.decVal = t'.decVal ∧ t.decCons = t'.decCons ∧ t.decStatus = t'.decStatus ∧ t.decErridx = t'.decErridx

/-- The frame of every instruction but ENCODE: no operand register, encode result, word of BUF or host action changes
(20_memory.md R52, 10_state.md R32, 45_decoder_dispatch.md R217). -/
def Obligations.DecodingRowsFrame : Prop :=
  ∀ i s t, i ≠ .encode → exec i s = .next t →
    t.encIn = s.encIn ∧ t.encOut = s.encOut ∧ t.encLen = s.encLen ∧ t.bufLen = s.bufLen ∧ t.decOff = s.decOff ∧
    t.buf = s.buf ∧ t.bufEpoch = s.bufEpoch ∧ t.pending = s.pending ∧ ∀ a, t.memRead a = s.memRead a

/-- 10_state.md R32: a command writes only the result registers of its own kind, and a result register keeps its value
until the next command of its own kind or reset. -/
def Obligations.ResultsKeptUntilTheirCommand : Prop :=
  (∀ s t v rest, s.pending = .cmd v :: rest → step s = .next t →
    t.encIn = s.encIn ∧ t.bufLen = s.bufLen ∧ t.decOff = s.decOff ∧ t.buf = s.buf ∧ t.pending = rest) ∧
  (∀ s t, step s = .next t → s.pending.head? ≠ some .reset →
    (s.pending.head? ≠ some (.cmd 0#1) → t.encOut = s.encOut ∧ t.encLen = s.encLen) ∧
    (s.pending.head? ≠ some (.cmd 1#1) →
      t.decVal = s.decVal ∧ t.decCons = s.decCons ∧ t.decStatus = s.decStatus ∧ t.decErridx = s.decErridx))

/-- 70_reset_and_hazards.md R334: after a failed DECODE, NEXT does not advance and the next DECODE fails in the same way. -/
def Obligations.FailedDecodeRepeats : Prop :=
  ∀ s t, exec .decode s = .next t → t.decStatus ≠ 0#2 →
    t.nextOff = t.decOff ∧ exec .decode (t.setDecOff t.nextOff) = .next t

/-- 44_near_infinity.md R193, 45_decoder_dispatch.md R219: a GB or NI value at or above 2^1024 * (1 - 2^-54) is the
infinity of its sign, one with every chunk zero is the zero of its sign, and one below the bound is finite. -/
def Obligations.MultiWordValueRange : Prop :=
  ∀ kind sg (m : BitVec 60),
    (overflowBound ≤ (m.toNat : ℚ) * (2 : ℚ) ^ kind.scale →
      multiValue kind sg m = if sg = 1#1 then 0xFFF0000000000000#64 else 0x7FF0000000000000#64) ∧
    ((m.toNat : ℚ) * (2 : ℚ) ^ kind.scale < overflowBound → expField (multiValue kind sg m) ≠ 2047) ∧
    (m = 0#60 → multiValue kind sg m = if sg = 1#1 then 0x8000000000000000#64 else 0x0000000000000000#64)

/-- 42_decimal_short_float.md R150, R151: for e ≥ 0 a DS word's value is exactly M * 10^e, and for every e the mantissa 0
gives the zero of the word's sign. -/
def Obligations.DecimalValues : Prop :=
  ∀ (e : Int) (sg : BitVec 1) (M : BitVec 10), -5 ≤ e → e ≤ 8 →
    expField (dsValue e sg M) ≠ 2047 ∧ signBit (dsValue e sg M) = sg ∧
    (0 ≤ e → (value (dsValue e sg M)).toRat = (M.toNat : ℚ) * (10 : ℚ) ^ e) ∧
    (M = 0#10 → dsValue e sg M = if sg = 1#1 then 0x8000000000000000#64 else 0x0000000000000000#64)

/-- 42_decimal_short_float.md R152: every DS word decodes to a finite value or a signed zero, and ENCODE of that value gives
a sequence that decodes to the same pattern. -/
def Obligations.DecimalWordsReencode : Prop :=
  ∀ (w : Word) (s0 t0 s : State), Word.decimal w → s0.encIn = dsDecode w → exec .encode s0 = .next t0 →
    s.offersWords t0.encoding →
    expField (dsDecode w) ≠ 2047 ∧
    ∃ t, exec .decode s = .next t ∧ t.decStatus = 0#2 ∧ t.decVal = dsDecode w

/-- 46_special_values.md R240: the patterns that encode to each special word are exactly those of the table. -/
def Obligations.SpecialWordsAreExactlyTheirPatterns : Prop :=
  ∀ s t, exec .encode s = .next t →
    (t.encOut[0] = 0xFFF0#16 ↔ s.encIn = 0x0000000000000000#64) ∧
    (t.encOut[0] = 0xFFF1#16 ↔ s.encIn = 0x8000000000000000#64) ∧
    (t.encOut[0] = 0xFFF2#16 ↔ s.encIn = 0x7FF0000000000000#64) ∧
    (t.encOut[0] = 0xFFF3#16 ↔ s.encIn = 0xFFF0000000000000#64) ∧
    (t.encOut[0] = 0xFFF4#16 ↔ expField s.encIn = 2047 ∧ fracField s.encIn ≠ 0)

/-! ### Round trips -/

/-- 43_encoder_dispatch.md R180: DECODE of the sequence ENCODE gave, at any offset and wholly inside BUF, succeeds,
consumes ENC_LEN words and gives the operand back bit for bit, a NaN becoming DECODE_NAN_BITS. -/
def Obligations.RoundTrip : Prop :=
  ∀ s0 t0 s, exec .encode s0 = .next t0 → s.offersWords t0.encoding →
    ∃ t, exec .decode s = .next t ∧ t.decStatus = 0#2 ∧ t.decCons = t0.encLen ∧
      t.decVal = if classify s0.encIn = .nan then Config.decodeNanBits else s0.encIn

/-- 45_decoder_dispatch.md R218: of two emitted sequences stored back to back, DECODE gives the first value, and after
NEXT's advance of DEC_OFF the second. -/
def Obligations.BackToBackDecoding : Prop :=
  ∀ a ta b tb s, exec .encode a = .next ta → exec .encode b = .next tb →
    s.offersWords (ta.encoding ++ tb.encoding) →
    ∃ t t', exec .decode s = .next t ∧ t.decStatus = 0#2 ∧ t.decCons = ta.encLen ∧
      t.decVal = (if classify a.encIn = .nan then Config.decodeNanBits else a.encIn) ∧
      exec .decode (t.setDecOff t.nextOff) = .next t' ∧ t'.decStatus = 0#2 ∧ t'.decCons = tb.encLen ∧
      t'.decVal = (if classify b.encIn = .nan then Config.decodeNanBits else b.encIn)
end

