-- ==== Sys2Proof/Laws/Bits.lean ====
section
/-! SUPPORT. The fields of the words of 30_encoding.md as numbers, and their slices. -/

namespace Sys2Proof

@[simp] theorem slice_toNat (lo len : Nat) {n : Nat} (v : BitVec n) :
    (slice lo len v).toNat = v.toNat / 2 ^ lo % 2 ^ len := by
  simp [slice, Nat.shiftRight_eq_div_pow]

@[simp] theorem gbWord_toNat (L : BitVec 2) (sg : BitVec 1) (X : BitVec 12) :
    (gbWord L sg X).toNat = L.toNat * 2 ^ 13 + sg.toNat * 2 ^ 12 + X.toNat := by
  have h1 := L.isLt; have h2 := sg.isLt; have h3 := X.isLt
  simp only [gbWord, catBits, List.foldl, BitVec.toNat_ofNat]
  omega

@[simp] theorem niWord_toNat (sg : BitVec 1) (L : BitVec 2) (e5 : BitVec 5) :
    (niWord sg L e5).toNat = 0xF800 + sg.toNat * 2 ^ 7 + L.toNat * 2 ^ 5 + e5.toNat := by
  have h1 := L.isLt; have h2 := sg.isLt; have h3 := e5.isLt
  simp only [niWord, catBits, List.foldl, BitVec.toNat_ofNat]
  omega

theorem dsWord_toNat (E4 : Nat) (sg : BitVec 1) (M : BitVec 10) (h : E4 < 16) :
    (dsWord E4 sg M).toNat = 0x8000 + E4 * 2 ^ 11 + sg.toNat * 2 ^ 10 + M.toNat := by
  have h2 := sg.isLt; have h3 := M.isLt
  simp only [dsWord, catBits, List.foldl, BitVec.toNat_ofNat]
  omega

@[simp] theorem chunkWord_toNat (c : BitVec 15) : (chunkWord c).toNat = c.toNat := by
  have h := c.isLt
  simp only [chunkWord, catBits, List.foldl, BitVec.toNat_ofNat]
  omega

/-- The chunk of a chunk's word is the chunk. -/
@[simp] theorem slice_chunkWord (c : BitVec 15) : slice 0 15 (chunkWord c) = c := by
  have h := c.isLt
  apply BitVec.eq_of_toNat_eq
  simp
  omega

/-- The fields of a GB lead word. -/
theorem slices_gbWord (L : BitVec 2) (sg : BitVec 1) (X : BitVec 12) :
    slice 13 2 (gbWord L sg X) = L ∧ slice 12 1 (gbWord L sg X) = sg ∧ slice 0 12 (gbWord L sg X) = X := by
  have h1 := L.isLt; have h2 := sg.isLt; have h3 := X.isLt
  refine ⟨?_, ?_, ?_⟩ <;> apply BitVec.eq_of_toNat_eq <;> rw [slice_toNat, gbWord_toNat] <;> omega

/-- The fields of an NI lead word. -/
theorem slices_niWord (sg : BitVec 1) (L : BitVec 2) (e5 : BitVec 5) :
    slice 7 1 (niWord sg L e5) = sg ∧ slice 5 2 (niWord sg L e5) = L ∧ slice 0 5 (niWord sg L e5) = e5 := by
  have h1 := L.isLt; have h2 := sg.isLt; have h3 := e5.isLt
  refine ⟨?_, ?_, ?_⟩ <;> apply BitVec.eq_of_toNat_eq <;> rw [slice_toNat, niWord_toNat] <;> omega

/-- The fields of a DS word. -/
theorem slices_dsWord (E4 : Nat) (sg : BitVec 1) (M : BitVec 10) (h : E4 < 16) :
    (slice 11 4 (dsWord E4 sg M)).toNat = E4 ∧ slice 10 1 (dsWord E4 sg M) = sg ∧
      slice 0 10 (dsWord E4 sg M) = M := by
  have h2 := sg.isLt; have h3 := M.isLt
  refine ⟨?_, ?_, ?_⟩
  · rw [slice_toNat, dsWord_toNat _ _ _ h]; omega
  all_goals apply BitVec.eq_of_toNat_eq; rw [slice_toNat, dsWord_toNat _ _ _ h]; omega

end Sys2Proof
end

