-- ==== Sys2Proof/Laws/State.lean ====
section
/-! SUPPORT. What each update of the state leaves in each field. -/

namespace Sys2Proof.Machine

@[simp] theorem State.setEncoding_encIn (s : State) (seq : List Word) : (s.setEncoding seq).encIn = s.encIn := rfl
@[simp] theorem State.setEncoding_encOut (s : State) (seq : List Word) : (s.setEncoding seq).encOut = #v[seq.getD 0 0#16, seq.getD 1 0#16, seq.getD 2 0#16, seq.getD 3 0#16, seq.getD 4 0#16] := rfl
@[simp] theorem State.setEncoding_encLen (s : State) (seq : List Word) : (s.setEncoding seq).encLen = BitVec.ofNat 3 seq.length := rfl
@[simp] theorem State.setEncoding_bufLen (s : State) (seq : List Word) : (s.setEncoding seq).bufLen = s.bufLen := rfl
@[simp] theorem State.setEncoding_decOff (s : State) (seq : List Word) : (s.setEncoding seq).decOff = s.decOff := rfl
@[simp] theorem State.setEncoding_decVal (s : State) (seq : List Word) : (s.setEncoding seq).decVal = s.decVal := rfl
@[simp] theorem State.setEncoding_decCons (s : State) (seq : List Word) : (s.setEncoding seq).decCons = s.decCons := rfl
@[simp] theorem State.setEncoding_decStatus (s : State) (seq : List Word) : (s.setEncoding seq).decStatus = s.decStatus := rfl
@[simp] theorem State.setEncoding_decErridx (s : State) (seq : List Word) : (s.setEncoding seq).decErridx = s.decErridx := rfl
@[simp] theorem State.setEncoding_buf (s : State) (seq : List Word) : (s.setEncoding seq).buf = s.buf := rfl
@[simp] theorem State.setEncoding_bufEpoch (s : State) (seq : List Word) : (s.setEncoding seq).bufEpoch = s.bufEpoch := rfl
@[simp] theorem State.setEncoding_decoding (s : State) (seq : List Word) : (s.setEncoding seq).decoding = s.decoding := rfl
@[simp] theorem State.setEncoding_pending (s : State) (seq : List Word) : (s.setEncoding seq).pending = s.pending := rfl

@[simp] theorem State.deliver_encIn (s : State) (v : Pattern) (cons : Nat) : (s.deliver v cons).encIn = s.encIn := rfl
@[simp] theorem State.deliver_encOut (s : State) (v : Pattern) (cons : Nat) : (s.deliver v cons).encOut = s.encOut := rfl
@[simp] theorem State.deliver_encLen (s : State) (v : Pattern) (cons : Nat) : (s.deliver v cons).encLen = s.encLen := rfl
@[simp] theorem State.deliver_bufLen (s : State) (v : Pattern) (cons : Nat) : (s.deliver v cons).bufLen = s.bufLen := rfl
@[simp] theorem State.deliver_decOff (s : State) (v : Pattern) (cons : Nat) : (s.deliver v cons).decOff = s.decOff := rfl
@[simp] theorem State.deliver_decVal (s : State) (v : Pattern) (cons : Nat) : (s.deliver v cons).decVal = v := rfl
@[simp] theorem State.deliver_decCons (s : State) (v : Pattern) (cons : Nat) : (s.deliver v cons).decCons = BitVec.ofNat 3 cons := rfl
@[simp] theorem State.deliver_decStatus (s : State) (v : Pattern) (cons : Nat) : (s.deliver v cons).decStatus = statusOk := rfl
@[simp] theorem State.deliver_decErridx (s : State) (v : Pattern) (cons : Nat) : (s.deliver v cons).decErridx = 0#3 := rfl
@[simp] theorem State.deliver_buf (s : State) (v : Pattern) (cons : Nat) : (s.deliver v cons).buf = s.buf := rfl
@[simp] theorem State.deliver_bufEpoch (s : State) (v : Pattern) (cons : Nat) : (s.deliver v cons).bufEpoch = s.bufEpoch := rfl
@[simp] theorem State.deliver_decoding (s : State) (v : Pattern) (cons : Nat) : (s.deliver v cons).decoding = none := rfl
@[simp] theorem State.deliver_pending (s : State) (v : Pattern) (cons : Nat) : (s.deliver v cons).pending = s.pending := rfl

@[simp] theorem State.raise_encIn (s : State) (c : Cause) (k : Nat) : (s.raise c k).encIn = s.encIn := rfl
@[simp] theorem State.raise_encOut (s : State) (c : Cause) (k : Nat) : (s.raise c k).encOut = s.encOut := rfl
@[simp] theorem State.raise_encLen (s : State) (c : Cause) (k : Nat) : (s.raise c k).encLen = s.encLen := rfl
@[simp] theorem State.raise_bufLen (s : State) (c : Cause) (k : Nat) : (s.raise c k).bufLen = s.bufLen := rfl
@[simp] theorem State.raise_decOff (s : State) (c : Cause) (k : Nat) : (s.raise c k).decOff = s.decOff := rfl
@[simp] theorem State.raise_decVal (s : State) (c : Cause) (k : Nat) : (s.raise c k).decVal = 0#64 := rfl
@[simp] theorem State.raise_decCons (s : State) (c : Cause) (k : Nat) : (s.raise c k).decCons = 0#3 := rfl
@[simp] theorem State.raise_decStatus (s : State) (c : Cause) (k : Nat) : (s.raise c k).decStatus = causeCode c := rfl
@[simp] theorem State.raise_decErridx (s : State) (c : Cause) (k : Nat) : (s.raise c k).decErridx = BitVec.ofNat 3 k := rfl
@[simp] theorem State.raise_buf (s : State) (c : Cause) (k : Nat) : (s.raise c k).buf = s.buf := rfl
@[simp] theorem State.raise_bufEpoch (s : State) (c : Cause) (k : Nat) : (s.raise c k).bufEpoch = s.bufEpoch := rfl
@[simp] theorem State.raise_decoding (s : State) (c : Cause) (k : Nat) : (s.raise c k).decoding = none := rfl
@[simp] theorem State.raise_pending (s : State) (c : Cause) (k : Nat) : (s.raise c k).pending = s.pending := rfl

@[simp] theorem State.beginValue_encIn (s : State) (kind : MultiKind) (sg : BitVec 1) (L : BitVec 2) : (s.beginValue kind sg L).encIn = s.encIn := rfl
@[simp] theorem State.beginValue_encOut (s : State) (kind : MultiKind) (sg : BitVec 1) (L : BitVec 2) : (s.beginValue kind sg L).encOut = s.encOut := rfl
@[simp] theorem State.beginValue_encLen (s : State) (kind : MultiKind) (sg : BitVec 1) (L : BitVec 2) : (s.beginValue kind sg L).encLen = s.encLen := rfl
@[simp] theorem State.beginValue_bufLen (s : State) (kind : MultiKind) (sg : BitVec 1) (L : BitVec 2) : (s.beginValue kind sg L).bufLen = s.bufLen := rfl
@[simp] theorem State.beginValue_decOff (s : State) (kind : MultiKind) (sg : BitVec 1) (L : BitVec 2) : (s.beginValue kind sg L).decOff = s.decOff := rfl
@[simp] theorem State.beginValue_decVal (s : State) (kind : MultiKind) (sg : BitVec 1) (L : BitVec 2) : (s.beginValue kind sg L).decVal = s.decVal := rfl
@[simp] theorem State.beginValue_decCons (s : State) (kind : MultiKind) (sg : BitVec 1) (L : BitVec 2) : (s.beginValue kind sg L).decCons = s.decCons := rfl
@[simp] theorem State.beginValue_decStatus (s : State) (kind : MultiKind) (sg : BitVec 1) (L : BitVec 2) : (s.beginValue kind sg L).decStatus = s.decStatus := rfl
@[simp] theorem State.beginValue_decErridx (s : State) (kind : MultiKind) (sg : BitVec 1) (L : BitVec 2) : (s.beginValue kind sg L).decErridx = s.decErridx := rfl
@[simp] theorem State.beginValue_buf (s : State) (kind : MultiKind) (sg : BitVec 1) (L : BitVec 2) : (s.beginValue kind sg L).buf = s.buf := rfl
@[simp] theorem State.beginValue_bufEpoch (s : State) (kind : MultiKind) (sg : BitVec 1) (L : BitVec 2) : (s.beginValue kind sg L).bufEpoch = s.bufEpoch := rfl
@[simp] theorem State.beginValue_decoding (s : State) (kind : MultiKind) (sg : BitVec 1) (L : BitVec 2) : (s.beginValue kind sg L).decoding = some { kind := kind, sg := sg, len := L, taken := 0, m60 := 0#60 } := rfl
@[simp] theorem State.beginValue_pending (s : State) (kind : MultiKind) (sg : BitVec 1) (L : BitVec 2) : (s.beginValue kind sg L).pending = s.pending := rfl

@[simp] theorem State.setEncIn_encIn (s : State) (v : Pattern) : (s.setEncIn v).encIn = v := rfl
@[simp] theorem State.setEncIn_encOut (s : State) (v : Pattern) : (s.setEncIn v).encOut = s.encOut := rfl
@[simp] theorem State.setEncIn_encLen (s : State) (v : Pattern) : (s.setEncIn v).encLen = s.encLen := rfl
@[simp] theorem State.setEncIn_bufLen (s : State) (v : Pattern) : (s.setEncIn v).bufLen = s.bufLen := rfl
@[simp] theorem State.setEncIn_decOff (s : State) (v : Pattern) : (s.setEncIn v).decOff = s.decOff := rfl
@[simp] theorem State.setEncIn_decVal (s : State) (v : Pattern) : (s.setEncIn v).decVal = s.decVal := rfl
@[simp] theorem State.setEncIn_decCons (s : State) (v : Pattern) : (s.setEncIn v).decCons = s.decCons := rfl
@[simp] theorem State.setEncIn_decStatus (s : State) (v : Pattern) : (s.setEncIn v).decStatus = s.decStatus := rfl
@[simp] theorem State.setEncIn_decErridx (s : State) (v : Pattern) : (s.setEncIn v).decErridx = s.decErridx := rfl
@[simp] theorem State.setEncIn_buf (s : State) (v : Pattern) : (s.setEncIn v).buf = s.buf := rfl
@[simp] theorem State.setEncIn_bufEpoch (s : State) (v : Pattern) : (s.setEncIn v).bufEpoch = s.bufEpoch := rfl
@[simp] theorem State.setEncIn_decoding (s : State) (v : Pattern) : (s.setEncIn v).decoding = s.decoding := rfl
@[simp] theorem State.setEncIn_pending (s : State) (v : Pattern) : (s.setEncIn v).pending = s.pending := rfl

@[simp] theorem State.setBufLen_encIn (s : State) (v : Off) : (s.setBufLen v).encIn = s.encIn := rfl
@[simp] theorem State.setBufLen_encOut (s : State) (v : Off) : (s.setBufLen v).encOut = s.encOut := rfl
@[simp] theorem State.setBufLen_encLen (s : State) (v : Off) : (s.setBufLen v).encLen = s.encLen := rfl
@[simp] theorem State.setBufLen_bufLen (s : State) (v : Off) : (s.setBufLen v).bufLen = v := rfl
@[simp] theorem State.setBufLen_decOff (s : State) (v : Off) : (s.setBufLen v).decOff = s.decOff := rfl
@[simp] theorem State.setBufLen_decVal (s : State) (v : Off) : (s.setBufLen v).decVal = s.decVal := rfl
@[simp] theorem State.setBufLen_decCons (s : State) (v : Off) : (s.setBufLen v).decCons = s.decCons := rfl
@[simp] theorem State.setBufLen_decStatus (s : State) (v : Off) : (s.setBufLen v).decStatus = s.decStatus := rfl
@[simp] theorem State.setBufLen_decErridx (s : State) (v : Off) : (s.setBufLen v).decErridx = s.decErridx := rfl
@[simp] theorem State.setBufLen_buf (s : State) (v : Off) : (s.setBufLen v).buf = s.buf := rfl
@[simp] theorem State.setBufLen_bufEpoch (s : State) (v : Off) : (s.setBufLen v).bufEpoch = s.bufEpoch := rfl
@[simp] theorem State.setBufLen_decoding (s : State) (v : Off) : (s.setBufLen v).decoding = s.decoding := rfl
@[simp] theorem State.setBufLen_pending (s : State) (v : Off) : (s.setBufLen v).pending = s.pending := rfl

@[simp] theorem State.setDecOff_encIn (s : State) (v : Off) : (s.setDecOff v).encIn = s.encIn := rfl
@[simp] theorem State.setDecOff_encOut (s : State) (v : Off) : (s.setDecOff v).encOut = s.encOut := rfl
@[simp] theorem State.setDecOff_encLen (s : State) (v : Off) : (s.setDecOff v).encLen = s.encLen := rfl
@[simp] theorem State.setDecOff_bufLen (s : State) (v : Off) : (s.setDecOff v).bufLen = s.bufLen := rfl
@[simp] theorem State.setDecOff_decOff (s : State) (v : Off) : (s.setDecOff v).decOff = v := rfl
@[simp] theorem State.setDecOff_decVal (s : State) (v : Off) : (s.setDecOff v).decVal = s.decVal := rfl
@[simp] theorem State.setDecOff_decCons (s : State) (v : Off) : (s.setDecOff v).decCons = s.decCons := rfl
@[simp] theorem State.setDecOff_decStatus (s : State) (v : Off) : (s.setDecOff v).decStatus = s.decStatus := rfl
@[simp] theorem State.setDecOff_decErridx (s : State) (v : Off) : (s.setDecOff v).decErridx = s.decErridx := rfl
@[simp] theorem State.setDecOff_buf (s : State) (v : Off) : (s.setDecOff v).buf = s.buf := rfl
@[simp] theorem State.setDecOff_bufEpoch (s : State) (v : Off) : (s.setDecOff v).bufEpoch = s.bufEpoch := rfl
@[simp] theorem State.setDecOff_decoding (s : State) (v : Off) : (s.setDecOff v).decoding = s.decoding := rfl
@[simp] theorem State.setDecOff_pending (s : State) (v : Off) : (s.setDecOff v).pending = s.pending := rfl

@[simp] theorem State.setWord_encIn (s : State) (a : Nat) (w : Word) : (s.setWord a w).encIn = s.encIn := rfl
@[simp] theorem State.setWord_encOut (s : State) (a : Nat) (w : Word) : (s.setWord a w).encOut = s.encOut := rfl
@[simp] theorem State.setWord_encLen (s : State) (a : Nat) (w : Word) : (s.setWord a w).encLen = s.encLen := rfl
@[simp] theorem State.setWord_bufLen (s : State) (a : Nat) (w : Word) : (s.setWord a w).bufLen = s.bufLen := rfl
@[simp] theorem State.setWord_decOff (s : State) (a : Nat) (w : Word) : (s.setWord a w).decOff = s.decOff := rfl
@[simp] theorem State.setWord_decVal (s : State) (a : Nat) (w : Word) : (s.setWord a w).decVal = s.decVal := rfl
@[simp] theorem State.setWord_decCons (s : State) (a : Nat) (w : Word) : (s.setWord a w).decCons = s.decCons := rfl
@[simp] theorem State.setWord_decStatus (s : State) (a : Nat) (w : Word) : (s.setWord a w).decStatus = s.decStatus := rfl
@[simp] theorem State.setWord_decErridx (s : State) (a : Nat) (w : Word) : (s.setWord a w).decErridx = s.decErridx := rfl
@[simp] theorem State.setWord_buf (s : State) (a : Nat) (w : Word) : (s.setWord a w).buf = s.buf.write a w := rfl
@[simp] theorem State.setWord_bufEpoch (s : State) (a : Nat) (w : Word) : (s.setWord a w).bufEpoch = s.bufEpoch := rfl
@[simp] theorem State.setWord_decoding (s : State) (a : Nat) (w : Word) : (s.setWord a w).decoding = s.decoding := rfl
@[simp] theorem State.setWord_pending (s : State) (a : Nat) (w : Word) : (s.setWord a w).pending = s.pending := rfl

@[simp] theorem State.setPending_encIn (s : State) (q : List HostAction) : (s.setPending q).encIn = s.encIn := rfl
@[simp] theorem State.setPending_encOut (s : State) (q : List HostAction) : (s.setPending q).encOut = s.encOut := rfl
@[simp] theorem State.setPending_encLen (s : State) (q : List HostAction) : (s.setPending q).encLen = s.encLen := rfl
@[simp] theorem State.setPending_bufLen (s : State) (q : List HostAction) : (s.setPending q).bufLen = s.bufLen := rfl
@[simp] theorem State.setPending_decOff (s : State) (q : List HostAction) : (s.setPending q).decOff = s.decOff := rfl
@[simp] theorem State.setPending_decVal (s : State) (q : List HostAction) : (s.setPending q).decVal = s.decVal := rfl
@[simp] theorem State.setPending_decCons (s : State) (q : List HostAction) : (s.setPending q).decCons = s.decCons := rfl
@[simp] theorem State.setPending_decStatus (s : State) (q : List HostAction) : (s.setPending q).decStatus = s.decStatus := rfl
@[simp] theorem State.setPending_decErridx (s : State) (q : List HostAction) : (s.setPending q).decErridx = s.decErridx := rfl
@[simp] theorem State.setPending_buf (s : State) (q : List HostAction) : (s.setPending q).buf = s.buf := rfl
@[simp] theorem State.setPending_bufEpoch (s : State) (q : List HostAction) : (s.setPending q).bufEpoch = s.bufEpoch := rfl
@[simp] theorem State.setPending_decoding (s : State) (q : List HostAction) : (s.setPending q).decoding = s.decoding := rfl
@[simp] theorem State.setPending_pending (s : State) (q : List HostAction) : (s.setPending q).pending = q := rfl

@[simp] theorem State.placeValue_encIn (s : State) (ws : List Word) : (s.placeValue ws).encIn = s.encIn := rfl
@[simp] theorem State.placeValue_encOut (s : State) (ws : List Word) : (s.placeValue ws).encOut = s.encOut := rfl
@[simp] theorem State.placeValue_encLen (s : State) (ws : List Word) : (s.placeValue ws).encLen = s.encLen := rfl
@[simp] theorem State.placeValue_bufLen (s : State) (ws : List Word) : (s.placeValue ws).bufLen = Off.small 5 (by decide) := rfl
@[simp] theorem State.placeValue_decOff (s : State) (ws : List Word) : (s.placeValue ws).decOff = Off.small 0 (by decide) := rfl
@[simp] theorem State.placeValue_decVal (s : State) (ws : List Word) : (s.placeValue ws).decVal = s.decVal := rfl
@[simp] theorem State.placeValue_decCons (s : State) (ws : List Word) : (s.placeValue ws).decCons = s.decCons := rfl
@[simp] theorem State.placeValue_decStatus (s : State) (ws : List Word) : (s.placeValue ws).decStatus = s.decStatus := rfl
@[simp] theorem State.placeValue_decErridx (s : State) (ws : List Word) : (s.placeValue ws).decErridx = s.decErridx := rfl
@[simp] theorem State.placeValue_buf (s : State) (ws : List Word) : (s.placeValue ws).buf = s.buf.writeAll 0 ws := rfl
@[simp] theorem State.placeValue_bufEpoch (s : State) (ws : List Word) : (s.placeValue ws).bufEpoch = s.bufEpoch := rfl
@[simp] theorem State.placeValue_decoding (s : State) (ws : List Word) : (s.placeValue ws).decoding = s.decoding := rfl
@[simp] theorem State.placeValue_pending (s : State) (ws : List Word) : (s.placeValue ws).pending = s.pending := rfl

@[simp] theorem State.hostReset_encIn (s : State) : s.hostReset.encIn = State.reset.encIn := rfl
@[simp] theorem State.hostReset_encOut (s : State) : s.hostReset.encOut = State.reset.encOut := rfl
@[simp] theorem State.hostReset_encLen (s : State) : s.hostReset.encLen = State.reset.encLen := rfl
@[simp] theorem State.hostReset_bufLen (s : State) : s.hostReset.bufLen = State.reset.bufLen := rfl
@[simp] theorem State.hostReset_decOff (s : State) : s.hostReset.decOff = State.reset.decOff := rfl
@[simp] theorem State.hostReset_decVal (s : State) : s.hostReset.decVal = State.reset.decVal := rfl
@[simp] theorem State.hostReset_decCons (s : State) : s.hostReset.decCons = State.reset.decCons := rfl
@[simp] theorem State.hostReset_decStatus (s : State) : s.hostReset.decStatus = State.reset.decStatus := rfl
@[simp] theorem State.hostReset_decErridx (s : State) : s.hostReset.decErridx = State.reset.decErridx := rfl
@[simp] theorem State.hostReset_buf (s : State) : s.hostReset.buf = State.reset.buf := rfl
@[simp] theorem State.hostReset_bufEpoch (s : State) : s.hostReset.bufEpoch = s.bufEpoch + 1 := rfl
@[simp] theorem State.hostReset_decoding (s : State) : s.hostReset.decoding = State.reset.decoding := rfl
@[simp] theorem State.hostReset_pending (s : State) : s.hostReset.pending = s.pending := rfl

@[simp] theorem State.withWrite_encOut (s : State) (h : HostWrite) : (s.withWrite h).encOut = s.encOut := by cases h <;> rfl
@[simp] theorem State.withWrite_encLen (s : State) (h : HostWrite) : (s.withWrite h).encLen = s.encLen := by cases h <;> rfl
@[simp] theorem State.withWrite_decVal (s : State) (h : HostWrite) : (s.withWrite h).decVal = s.decVal := by cases h <;> rfl
@[simp] theorem State.withWrite_decCons (s : State) (h : HostWrite) : (s.withWrite h).decCons = s.decCons := by cases h <;> rfl
@[simp] theorem State.withWrite_decStatus (s : State) (h : HostWrite) : (s.withWrite h).decStatus = s.decStatus := by cases h <;> rfl
@[simp] theorem State.withWrite_decErridx (s : State) (h : HostWrite) : (s.withWrite h).decErridx = s.decErridx := by cases h <;> rfl
@[simp] theorem State.withWrite_bufEpoch (s : State) (h : HostWrite) : (s.withWrite h).bufEpoch = s.bufEpoch := by cases h <;> rfl
@[simp] theorem State.withWrite_decoding (s : State) (h : HostWrite) : (s.withWrite h).decoding = s.decoding := by cases h <;> rfl
@[simp] theorem State.withWrite_pending (s : State) (h : HostWrite) : (s.withWrite h).pending = s.pending := by cases h <;> rfl

/-- A host write of an existing register or address answers the state with it applied (10_state.md R24, 20_memory.md R50). -/
theorem hostWrite_of_wf (s : State) (h : HostWrite) (hw : h.wf) : hostWrite h s = .next (s.withWrite h) := by
  cases h with
  | buf a w => exact if_pos hw
  | encIn v => rfl
  | bufLen v => rfl
  | decOff v => rfl
  | readOnly r v => rfl

end Sys2Proof.Machine
end

