-- ==== Sys2Proof/Laws/Memory.lean ====
section
/-! SUPPORT. BUF: a read after a write, the canonical form, and what the bounds check of READ says. -/

namespace Sys2Proof.Machine

/-- A word written is read back. -/
@[simp] theorem Memory.read?_write_same (m : Memory) (a : Nat) (w : Word) : (m.write a w).read? a = some w := by
  induction m with
  | nil => simp [Memory.write, Memory.read?]
  | cons c m ih =>
    simp only [Memory.write]
    split
    · simp [Memory.read?]
    · split
      · simp [Memory.read?]
      · simp_all [Memory.read?]

/-- A write leaves every other address alone. -/
theorem Memory.read?_write_other (m : Memory) (a b : Nat) (w : Word) (h : b ≠ a) :
    (m.write a w).read? b = m.read? b := by
  induction m with
  | nil => simp [Memory.write, Memory.read?, h]
  | cons c m ih =>
    simp only [Memory.write]
    split
    · simp [Memory.read?, h]
    · split
      · rename_i h2; subst h2; simp [Memory.read?, h]
      · simp [Memory.read?, ih]

/-- Where the addresses of a memory after a write come from. -/
theorem Memory.mem_write_fst (m : Memory) (a : Nat) (w : Word) (c : WordCell) (h : c ∈ m.write a w) :
    c.1 = a ∨ ∃ d ∈ m, d.1 = c.1 := by
  induction m with
  | nil => simp [Memory.write] at h; exact .inl (by rw [h])
  | cons d m ih =>
    simp only [Memory.write] at h
    split at h
    · rcases List.mem_cons.mp h with rfl | h
      · exact .inl rfl
      · exact .inr ⟨c, h, rfl⟩
    · split at h
      · rcases List.mem_cons.mp h with rfl | h
        · exact .inl rfl
        · exact .inr ⟨c, List.mem_cons_of_mem _ h, rfl⟩
      · rcases List.mem_cons.mp h with rfl | h
        · exact .inr ⟨_, List.mem_cons_self, rfl⟩
        · rcases ih h with h | ⟨e, he, h⟩
          · exact .inl h
          · exact .inr ⟨e, List.mem_cons_of_mem _ he, h⟩

/-- A write keeps the canonical form. -/
theorem Memory.write_wf (m : Memory) (a : Nat) (w : Word) (h : m.wf) : (m.write a w).wf := by
  induction m with
  | nil => simp [Memory.write]
  | cons c m ih =>
    obtain ⟨hc, hm⟩ := List.pairwise_cons.mp h
    simp only [Memory.write]
    split
    · rename_i hlt
      refine List.pairwise_cons.mpr ⟨fun d hd => ?_, h⟩
      rcases List.mem_cons.mp hd with rfl | hd
      · exact hlt
      · exact Nat.lt_trans hlt (hc d hd)
    · split
      · rename_i heq
        subst heq
        exact List.pairwise_cons.mpr ⟨hc, hm⟩
      · rename_i hnlt hne
        refine List.pairwise_cons.mpr ⟨fun d hd => ?_, ih hm⟩
        rcases Memory.mem_write_fst m a w d hd with h1 | ⟨e, he, h1⟩
        · rw [h1]; omega
        · rw [← h1]; exact hc e he

/-- Writing several words keeps the canonical form. -/
theorem Memory.writeAll_wf (ws : List Word) : ∀ (m : Memory) (a : Nat), m.wf → (m.writeAll a ws).wf := by
  induction ws with
  | nil => exact fun _ _ h => h
  | cons w ws ih => exact fun m a h => ih _ _ (Memory.write_wf m a w h)

/-- The memory after reset is canonical. -/
theorem State.reset_buf_wf : State.reset.buf.wf := List.Pairwise.nil

/-- The word a host write stored is the word DECODE reads there. -/
@[simp] theorem State.memRead_setWord_same (s : State) (a : Nat) (w : Word) : (s.setWord a w).memRead a = w := by
  simp [State.memRead]

/-- A host write leaves every other word of BUF alone. -/
theorem State.memRead_setWord_other (s : State) (a b : Nat) (w : Word) (h : b ≠ a) :
    (s.setWord a w).memRead b = s.memRead b := by
  simp [State.memRead, Memory.read?_write_other _ _ _ _ h]

/-- READ(k) depends on BUF, its epoch, DEC_OFF and BUF_LEN alone. -/
theorem State.readWord_congr (s t : State) (k : Nat) (hb : t.buf = s.buf) (he : t.bufEpoch = s.bufEpoch)
    (ho : t.decOff = s.decOff) (hl : t.bufLen = s.bufLen) : t.readWord k = s.readWord k := by
  simp [State.readWord, State.memRead, hb, he, ho, hl]

/-- READ(k) answers exactly for an address below BUF_LEN, with the word that stands there. -/
theorem State.readWord_eq_some (s : State) (k : Nat) (w : Word) :
    s.readWord k = some w ↔ s.decOff.toNat + k < s.bufLen.toNat ∧ s.memRead (s.decOff.toNat + k) = w := by
  simp [State.readWord]

/-- READ(k) fails exactly at or beyond BUF_LEN. -/
theorem State.readWord_eq_none (s : State) (k : Nat) :
    s.readWord k = none ↔ s.bufLen.toNat ≤ s.decOff.toNat + k := by
  simp [State.readWord]

end Sys2Proof.Machine
end

