-- ==== Sys2Proof/Laws/Decoding.lean ====
section
/-! SUPPORT. Once and for all what the shared decoding operations can do: the frame of reading a value, and the outcomes of
reading the chunks of a GB or NI value. -/

namespace Sys2Proof.Machine

/-- The fields no DECODE writes agree in two states (10_state.md R32, 20_memory.md R52). -/
structure State.SameOperands (s t : State) : Prop where
  encIn : t.encIn = s.encIn
  encOut : t.encOut = s.encOut
  encLen : t.encLen = s.encLen
  bufLen : t.bufLen = s.bufLen
  decOff : t.decOff = s.decOff
  buf : t.buf = s.buf
  bufEpoch : t.bufEpoch = s.bufEpoch
  pending : t.pending = s.pending

theorem State.SameOperands.refl (s : State) : s.SameOperands s := ⟨rfl, rfl, rfl, rfl, rfl, rfl, rfl, rfl⟩

theorem State.SameOperands.trans {s t u : State} (h : s.SameOperands t) (k : t.SameOperands u) : s.SameOperands u :=
  ⟨k.encIn.trans h.encIn, k.encOut.trans h.encOut, k.encLen.trans h.encLen, k.bufLen.trans h.bufLen,
    k.decOff.trans h.decOff, k.buf.trans h.buf, k.bufEpoch.trans h.bufEpoch, k.pending.trans h.pending⟩

theorem State.SameOperands.readWord {s t : State} (h : s.SameOperands t) (k : Nat) : t.readWord k = s.readWord k :=
  State.readWord_congr s t k h.buf h.bufEpoch h.decOff h.bufLen

theorem State.deliver_same (s : State) (v : Pattern) (n : Nat) : s.SameOperands (s.deliver v n) :=
  ⟨rfl, rfl, rfl, rfl, rfl, rfl, rfl, rfl⟩

theorem State.raise_same (s : State) (c : Cause) (k : Nat) : s.SameOperands (s.raise c k) :=
  ⟨rfl, rfl, rfl, rfl, rfl, rfl, rfl, rfl⟩

theorem State.beginValue_same (s : State) (kind : MultiKind) (sg : BitVec 1) (L : BitVec 2) :
    s.SameOperands (s.beginValue kind sg L) := ⟨rfl, rfl, rfl, rfl, rfl, rfl, rfl, rfl⟩

theorem State.acceptChunk_same (s : State) (c : BitVec 15) (p : PartialValue) :
    s.SameOperands (s.acceptChunk c p) := by
  unfold State.acceptChunk
  dsimp only
  split
  · exact State.deliver_same _ _ _
  · exact ⟨rfl, rfl, rfl, rfl, rfl, rfl, rfl, rfl⟩

theorem State.acceptContinuation_same (s : State) (w : Word) (p : PartialValue) :
    s.SameOperands (s.acceptContinuation w p) := by
  unfold State.acceptContinuation
  split
  · exact State.acceptChunk_same _ _ _
  · exact State.raise_same _ _ _

theorem State.readChunks_same : ∀ fuel (s : State), s.SameOperands (State.readChunks fuel s)
  | 0, s => State.SameOperands.refl s
  | fuel + 1, s => by
    unfold State.readChunks
    split
    · exact State.SameOperands.refl s
    · split
      · exact State.raise_same _ _ _
      · exact (State.acceptContinuation_same _ _ _).trans (State.readChunks_same fuel _)

theorem State.decodeMulti_same (s : State) (kind : MultiKind) (sg : BitVec 1) (L : BitVec 2) :
    s.SameOperands (s.decodeMulti kind sg L) :=
  (State.beginValue_same _ _ _ _).trans (State.readChunks_same _ _)

theorem State.decodeLeadWord_same (s : State) (w : Word) : s.SameOperands (s.decodeLeadWord w) := by
  unfold State.decodeLeadWord
  split
  · exact State.raise_same _ _ _
  · split
    · exact State.decodeMulti_same _ _ _ _
    · split
      · exact State.deliver_same _ _ _
      · split
        · exact State.raise_same _ _ _
        · split
          · exact State.deliver_same _ _ _
          · exact State.decodeMulti_same _ _ _ _

/-- Nothing is left to read where no value is being read. -/
@[simp] theorem State.readChunks_none (fuel : Nat) (s : State) (h : s.decoding = none) :
    State.readChunks fuel s = s := by
  cases fuel with
  | zero => rfl
  | succ n => simp [State.readChunks, h]

/-- One round of reading a value: the next word is missing, or forbidden, or a chunk (45_decoder_dispatch.md R214, R215). -/
theorem State.readChunks_succ (fuel : Nat) (s : State) (p : PartialValue) (h : s.decoding = some p) :
    State.readChunks (fuel + 1) s =
      match s.readWord (p.taken.val + 1) with
      | none => s.raise .truncated (p.taken.val + 1)
      | some w =>
        if w.toNat < 0x8000 then State.readChunks fuel (s.acceptChunk (slice 0 15 w) p)
        else s.raise .illegalCodeUnit (p.taken.val + 1) := by
  simp only [State.readChunks, h]
  cases s.readWord (p.taken.val + 1) with
  | none => rfl
  | some w =>
    simp only [State.acceptContinuation]
    split
    · rfl
    · exact State.readChunks_none _ _ rfl

/-- After the lead word nothing the DECODE does depends on what was being read before (45_decoder_dispatch.md R210). -/
theorem State.decodeMulti_decoding (s : State) (d : Option PartialValue) (kind : MultiKind) (sg : BitVec 1)
    (L : BitVec 2) : State.decodeMulti kind sg L { s with decoding := d } = State.decodeMulti kind sg L s := rfl

/-- A value that still lacks `len - taken + 1` chunks is complete after as many rounds: none is left half read, and the
results are those of a success or of an exception (45_decoder_dispatch.md R220, 60_exceptions.md R302). -/
theorem State.readChunks_finishes : ∀ fuel (s : State) (p : PartialValue), s.decoding = some p →
    p.taken.val ≤ p.len.toNat → p.len.toNat < p.taken.val + fuel →
    (State.readChunks fuel s).decoding = none ∧
    ((∃ v, State.readChunks fuel s = s.deliver v (2 + p.len.toNat)) ∨
     (∃ c k, p.taken.val < k ∧ k ≤ p.len.toNat + 1 ∧ State.readChunks fuel s = s.raise c k))
  | 0, _, _, _, h1, h2 => by omega
  | fuel + 1, s, p, h, h1, h2 => by
    rw [State.readChunks_succ fuel s p h]
    split
    · exact ⟨rfl, .inr ⟨_, _, Nat.lt_succ_self _, by omega, rfl⟩⟩
    · split
      · rename_i w _ _
        by_cases hlast : p.len.toNat ≤ p.taken.val
        · have hstep : s.acceptChunk (slice 0 15 w) p =
              s.deliver (multiValue p.kind p.sg (unpackStep p.m60 p.taken (slice 0 15 w))) (2 + p.taken.val) := by
            simp [State.acceptChunk, hlast]
          rw [hstep, State.readChunks_none _ _ rfl, show p.taken.val = p.len.toNat by omega]
          exact ⟨rfl, .inl ⟨_, rfl⟩⟩
        · have hlen := p.len.isLt
          have htk : (p.taken + 1).val = p.taken.val + 1 := by
            have := p.taken.isLt; simp [Fin.val_add]; omega
          let p' : PartialValue := { p with taken := p.taken + 1, m60 := unpackStep p.m60 p.taken (slice 0 15 w) }
          have hstep : s.acceptChunk (slice 0 15 w) p = { s with decoding := some p' } := by
            simp [State.acceptChunk, hlast, p']
          rw [hstep]
          obtain ⟨i1, i2⟩ := State.readChunks_finishes fuel { s with decoding := some p' } p' rfl
              (by simp only [p', htk]; omega) (by simp only [p', htk]; omega)
          refine ⟨i1, ?_⟩
          rcases i2 with ⟨v, hv⟩ | ⟨c, k, hk1, hk2, hk⟩
          · exact .inl ⟨v, hv⟩
          · exact .inr ⟨c, k, by simp only [p', htk] at hk1; omega, hk2, hk⟩
      · exact ⟨rfl, .inr ⟨_, _, Nat.lt_succ_self _, by omega, rfl⟩⟩

/-- What DECODE does after a GB or NI lead word: it delivers a value of 2 + L words, or raises an exception at one of the
words 1 .. L + 1; nothing is left half read. -/
theorem State.decodeMulti_outcome (s : State) (kind : MultiKind) (sg : BitVec 1) (L : BitVec 2) :
    (∃ v, s.decodeMulti kind sg L = s.deliver v (2 + L.toNat)) ∨
    (∃ c k, 1 ≤ k ∧ k ≤ L.toNat + 1 ∧ s.decodeMulti kind sg L = s.raise c k) := by
  have hL := L.isLt
  obtain ⟨_, h⟩ := State.readChunks_finishes 4 (s.beginValue kind sg L) _ rfl (Nat.zero_le _) (by simp; omega)
  rcases h with ⟨v, hv⟩ | ⟨c, k, h1, h2, hk⟩
  · exact .inl ⟨v, hv⟩
  · exact .inr ⟨c, k, by simp at h1; omega, h2, hk⟩

/-- What DECODE does once a lead word is read: it delivers a value of 1 to 5 words, or raises an exception at one of the
words 0 .. 4 (45_decoder_dispatch.md R210, 60_exceptions.md R303). -/
theorem State.decodeLeadWord_outcome (s : State) (w : Word) :
    (∃ v n, 1 ≤ n ∧ n ≤ 5 ∧ s.decodeLeadWord w = s.deliver v n) ∨
    (∃ c k, k ≤ 4 ∧ s.decodeLeadWord w = s.raise c k) := by
  have multi : ∀ kind sg (L : BitVec 2), (∃ v n, 1 ≤ n ∧ n ≤ 5 ∧ s.decodeMulti kind sg L = s.deliver v n) ∨
      (∃ c k, k ≤ 4 ∧ s.decodeMulti kind sg L = s.raise c k) := by
    intro kind sg L
    have hL := L.isLt
    rcases s.decodeMulti_outcome kind sg L with ⟨v, h⟩ | ⟨c, k, _, h2, h⟩
    · exact .inl ⟨v, _, by omega, by omega, h⟩
    · exact .inr ⟨c, k, by omega, h⟩
  unfold State.decodeLeadWord
  split
  · exact .inr ⟨_, _, Nat.zero_le _, rfl⟩
  · split
    · exact multi _ _ _
    · split
      · exact .inl ⟨_, 1, by decide, by decide, rfl⟩
      · split
        · exact .inr ⟨_, _, Nat.zero_le _, rfl⟩
        · split
          · exact .inl ⟨_, 1, by decide, by decide, rfl⟩
          · exact multi _ _ _

/-- What the DECODE command does: it answers a next state, that of a success with 1 to 5 words or of an exception at one
of the words 0 .. 4. -/
theorem execDecode_outcome (s : State) :
    (∃ v n, 1 ≤ n ∧ n ≤ 5 ∧ execDecode s = .next (s.deliver v n)) ∨
    (∃ c k, k ≤ 4 ∧ execDecode s = .next (s.raise c k)) := by
  unfold execDecode
  split
  · exact .inr ⟨_, _, Nat.zero_le _, rfl⟩
  · rcases s.decodeLeadWord_outcome _ with ⟨v, n, h1, h2, h⟩ | ⟨c, k, hk, h⟩
    · exact .inl ⟨v, n, h1, h2, by rw [h]⟩
    · exact .inr ⟨c, k, hk, by rw [h]⟩

end Sys2Proof.Machine
end

