-- ==== Sys2Proof/Laws/Packer.lean ====
section
/-! SUPPORT. One round of UNPACK as an addition, and the digits PACK takes as numbers. -/

namespace Sys2Proof.Machine

/-- Where the bits from 60 - 15 taken down are still zero, accepting a chunk adds it at its weight
(41_mantissa_packer.md R124). -/
theorem unpackStep_toNat (m60 : BitVec 60) (taken : Fin 4) (c : BitVec 15)
    (h : m60.toNat % 2 ^ (60 - 15 * taken.val) = 0) :
    (unpackStep m60 taken c).toNat = m60.toNat + c.toNat * 2 ^ (45 - 15 * taken.val) := by
  have hc := c.isLt
  have ht := taken.isLt
  have hm := m60.isLt
  have hshift : (c.setWidth 60 <<< (45 - 15 * taken.val)).toNat = c.toNat * 2 ^ (45 - 15 * taken.val) := by
    rw [BitVec.toNat_shiftLeft, BitVec.toNat_setWidth, Nat.shiftLeft_eq, Nat.mod_eq_of_lt (a := c.toNat) (by omega)]
    apply Nat.mod_eq_of_lt
    calc c.toNat * 2 ^ (45 - 15 * taken.val) < 2 ^ 15 * 2 ^ (45 - 15 * taken.val) :=
          Nat.mul_lt_mul_of_pos_right hc (Nat.two_pow_pos _)
      _ = 2 ^ (60 - 15 * taken.val) := by rw [← Nat.pow_add]; congr 1; omega
      _ ≤ 2 ^ 60 := Nat.pow_le_pow_right (by decide) (by omega)
  have hlow : c.toNat * 2 ^ (45 - 15 * taken.val) < 2 ^ (60 - 15 * taken.val) := by
    calc c.toNat * 2 ^ (45 - 15 * taken.val) < 2 ^ 15 * 2 ^ (45 - 15 * taken.val) :=
          Nat.mul_lt_mul_of_pos_right hc (Nat.two_pow_pos _)
      _ = 2 ^ (60 - 15 * taken.val) := by rw [← Nat.pow_add]; congr 1; omega
  obtain ⟨q, hq⟩ := Nat.dvd_of_mod_eq_zero h
  rw [unpackStep, BitVec.toNat_or, hshift, hq]
  exact (Nat.two_pow_add_eq_or_of_lt hlow q).symm

/-- The next chunk's bits are still zero after a chunk was accepted. -/
theorem unpackStep_low (m60 : BitVec 60) (taken : Fin 4) (c : BitVec 15)
    (h : m60.toNat % 2 ^ (60 - 15 * taken.val) = 0) :
    (unpackStep m60 taken c).toNat % 2 ^ (45 - 15 * taken.val) = 0 := by
  rw [unpackStep_toNat _ _ _ h, Nat.add_mul_mod_self_right]
  refine Nat.mod_eq_zero_of_dvd (Dvd.dvd.trans ?_ (Nat.dvd_of_mod_eq_zero h))
  exact Nat.pow_dvd_pow 2 (by omega)

/-- PACK gives one to four digits (41_mantissa_packer.md R120, R122). -/
theorem pack_length (Y : BitVec 60) : 1 ≤ (pack Y).length ∧ (pack Y).length ≤ 4 := by
  unfold pack
  dsimp only
  split
  · simp
  · split
    · simp
    · split <;> simp

end Sys2Proof.Machine
end

