-- ==== Sys2Proof/Laws/Encoding.lean ====
section
/-! SUPPORT. What ENCODE can emit: one word, or a lead word and the chunks of PACK. -/

namespace Sys2Proof.Machine

/-- The exponent code of an exponent in the window is one of the 14 legal codes, and decodes to the exponent (30_encoding.md
R80). -/
theorem dsCode_spec (e : Int) (h1 : -5 ≤ e) (h2 : e ≤ 8) :
    dsCode e < 15 ∧ dsCode e ≠ 11 ∧ dsExponent (dsCode e) = e := by
  unfold dsCode dsExponent
  dsimp only
  split
  · rename_i h
    exact ⟨by omega, by omega, by omega⟩
  · rename_i h
    exact ⟨by omega, by omega, by rw [if_neg (by omega)]; omega⟩

/-- What an eligible operand passed: a mantissa N in 100 .. 999 and an exponent e in -5 .. 8, the word of which is the
result, and whose rounding is the operand's magnitude (42_decimal_short_float.md R146). -/
theorem dsEncode_some (b : Pattern) (w : Word) (h : dsEncode b = some w) :
    ∃ (N : Nat) (e : Int), 100 ≤ N ∧ N ≤ 999 ∧ -5 ≤ e ∧ e ≤ 8 ∧ e = (value b).ilog10 - 2 ∧
      (dsScaled (value b) e).isInteger = true ∧ N = (dsScaled (value b) e).floor ∧
      roundToBinary64 0#1 ((Ratio.ofNat N).mulPow10 e) = assemble 0#1 (expField b) (fracField b) ∧
      w = dsWord (dsCode e) (signBit b) (BitVec.ofNat 10 N) := by
  unfold dsEncode at h
  dsimp only at h
  split at h
  · cases h
  · rename_i he
    split at h
    · cases h
    · rename_i hN
      split at h
      · cases h
      · rename_i hr
        simp only [not_or, Bool.not_eq_false, not_lt] at he hN
        exact ⟨_, _, hN.2.1, hN.2.2, he.1, he.2, rfl, hN.1, rfl, not_not.mp hr, (Option.some.inj h).symm⟩

/-- The shapes of an emitted sequence (43_encoder_dispatch.md R171): a special word, a DS word, or a GB or NI lead word
followed by the chunks of PACK. -/
theorem encodeSequence_cases (b : Pattern) :
    encodeSequence b = [spEncode b] ∨ (∃ w, dsEncode b = some w ∧ encodeSequence b = [w]) ∨
    (1023 ≤ (extract b).1 ∧ encodeSequence b = niEncode (signBit b) (extract b).1 (extract b).2) ∨
    ((extract b).1 < 1023 ∧ dsEncode b = none ∧
      encodeSequence b = gbEncode (signBit b) (extract b).1 (extract b).2) := by
  have fin : (∃ w, dsEncode b = some w ∧ finiteSequence b = [w]) ∨
      (1023 ≤ (extract b).1 ∧ finiteSequence b = niEncode (signBit b) (extract b).1 (extract b).2) ∨
      ((extract b).1 < 1023 ∧ dsEncode b = none ∧
        finiteSequence b = gbEncode (signBit b) (extract b).1 (extract b).2) := by
    unfold finiteSequence
    dsimp only
    split
    · rename_i hp; exact .inr (.inl ⟨hp, rfl⟩)
    · rename_i hp
      split
      · rename_i w hw; exact .inl ⟨w, hw, rfl⟩
      · rename_i hw; exact .inr (.inr ⟨by omega, hw, rfl⟩)
  unfold encodeSequence
  split
  · exact .inl rfl
  · exact .inl rfl
  · exact .inl rfl
  · exact .inr fin
  · exact .inr fin

/-- An emitted sequence has one to five words (43_encoder_dispatch.md R181). -/
theorem encodeSequence_length (b : Pattern) : 1 ≤ (encodeSequence b).length ∧ (encodeSequence b).length ≤ 5 := by
  have hp := pack_length (extract b).2
  rcases encodeSequence_cases b with h | ⟨w, _, h⟩ | ⟨_, h⟩ | ⟨_, _, h⟩ <;> rw [h] <;>
    simp [niEncode, gbEncode] <;> omega

/-- ENC_OUT[0..ENC_LEN-1] after ENCODE is the sequence (10_state.md R26). -/
theorem State.encoding_setEncoding (s : State) (seq : List Word) (h : seq.length ≤ 5) :
    (s.setEncoding seq).encoding = seq := by
  match seq, h with
  | [], _ => rfl
  | [_], _ => rfl
  | [_, _], _ => rfl
  | [_, _, _], _ => rfl
  | [_, _, _, _], _ => rfl
  | [_, _, _, _, _], _ => rfl
  | _ :: _ :: _ :: _ :: _ :: _ :: _, h => simp at h; omega

end Sys2Proof.Machine
end

