-- ==== Sys2Proof/Laws/Exact.lean ====
section
/-! SUPPORT. What the exact arithmetic of 00_scope.md section 5 computes: floor(log2), ilog10, rounding to an integer, and the
fields of an assembled pattern. -/

namespace Sys2Proof.Machine

theorem Ratio.toRat_nonneg (q : Ratio) : 0 ≤ q.toRat := by
  unfold Ratio.toRat; positivity

theorem Ratio.toRat_pos (q : Ratio) (h : q.num ≠ 0) : 0 < q.toRat := by
  have h1 := q.den_pos
  have h2 : 0 < q.num := Nat.pos_of_ne_zero h
  unfold Ratio.toRat; positivity

@[simp] theorem Ratio.toRat_ofNat (n : Nat) : (Ratio.ofNat n).toRat = n := by
  simp [Ratio.toRat, Ratio.ofNat]

/-- Scaling by a power of two is exact. -/
@[simp] theorem Ratio.toRat_mulPow2 (q : Ratio) (k : Int) : (q.mulPow2 k).toRat = q.toRat * (2 : ℚ) ^ k := by
  have h := q.den_pos
  cases k with
  | ofNat n => simp [Ratio.toRat, Ratio.mulPow2]; ring
  | negSucc n => simp [Ratio.toRat, Ratio.mulPow2, zpow_negSucc]; field_simp

/-- Scaling by a power of ten is exact. -/
@[simp] theorem Ratio.toRat_mulPow10 (q : Ratio) (k : Int) : (q.mulPow10 k).toRat = q.toRat * (10 : ℚ) ^ k := by
  have h := q.den_pos
  cases k with
  | ofNat n => simp [Ratio.toRat, Ratio.mulPow10]; ring
  | negSucc n => simp [Ratio.toRat, Ratio.mulPow10, zpow_negSucc]; field_simp

theorem Ratio.mulPow2_num_eq_zero (q : Ratio) (k : Int) : (q.mulPow2 k).num = 0 ↔ q.num = 0 := by
  cases k <;> simp [Ratio.mulPow2]

theorem Ratio.mulPow10_num_eq_zero (q : Ratio) (k : Int) : (q.mulPow10 k).num = 0 ↔ q.num = 0 := by
  cases k <;> simp [Ratio.mulPow10]

/-- A denominator below or at the numerator says that the rational is at least 1. -/
theorem Ratio.one_le_toRat_iff (q : Ratio) : q.den ≤ q.num ↔ 1 ≤ q.toRat := by
  have h : (0 : ℚ) < q.den := by exact_mod_cast q.den_pos
  rw [Ratio.toRat, one_le_div h, Nat.cast_le]

/-- floorLog2 is the t of 00_scope.md R13: 2^t ≤ q < 2^(t+1). -/
theorem Ratio.floorLog2_spec (q : Ratio) (h : q.num ≠ 0) :
    (2 : ℚ) ^ q.floorLog2 ≤ q.toRat ∧ q.toRat < (2 : ℚ) ^ (q.floorLog2 + 1) := by
  have hd : (0 : ℚ) < q.den := by exact_mod_cast q.den_pos
  have hdn : q.den ≠ 0 := q.den_pos.ne'
  have n1 : (2 : ℚ) ^ (Nat.log2 q.num) ≤ q.num := by exact_mod_cast Nat.log2_self_le h
  have n2 : (q.num : ℚ) < 2 ^ (Nat.log2 q.num + 1) := by exact_mod_cast Nat.lt_log2_self
  have d1 : (2 : ℚ) ^ (Nat.log2 q.den) ≤ q.den := by exact_mod_cast Nat.log2_self_le hdn
  have d2 : (q.den : ℚ) < 2 ^ (Nat.log2 q.den + 1) := by exact_mod_cast Nat.lt_log2_self
  set a := Nat.log2 q.num
  set b := Nat.log2 q.den
  have two : (2 : ℚ) ≠ 0 := two_ne_zero
  have hlow : (2 : ℚ) ^ ((a : Int) - b - 1) < q.toRat := by
    rw [Ratio.toRat, lt_div_iff₀ hd, zpow_sub₀ two, zpow_sub₀ two, zpow_natCast, zpow_natCast, zpow_one]
    have : (2 : ℚ) ^ a / 2 ^ b / 2 * q.den < 2 ^ a / 2 ^ b / 2 * 2 ^ (b + 1) :=
      mul_lt_mul_of_pos_left d2 (by positivity)
    refine lt_of_lt_of_le this ?_
    rw [pow_succ]; field_simp; exact n1
  have hhigh : q.toRat < (2 : ℚ) ^ ((a : Int) - b + 1) := by
    rw [Ratio.toRat, div_lt_iff₀ hd, zpow_add₀ two, zpow_sub₀ two, zpow_natCast, zpow_natCast, zpow_one]
    refine lt_of_lt_of_le n2 ?_
    have : (2 : ℚ) ^ a / 2 ^ b * 2 * 2 ^ b ≤ 2 ^ a / 2 ^ b * 2 * q.den :=
      mul_le_mul_of_nonneg_left d1 (by positivity)
    refine le_trans (le_of_eq ?_) this
    rw [pow_succ]; field_simp
  have key : (q.mulPow2 (-((a : Int) - b))).den ≤ (q.mulPow2 (-((a : Int) - b))).num ↔
      (2 : ℚ) ^ ((a : Int) - b) ≤ q.toRat := by
    rw [Ratio.one_le_toRat_iff, Ratio.toRat_mulPow2, zpow_neg, ← div_eq_mul_inv, one_le_div (by positivity)]
  unfold Ratio.floorLog2
  dsimp only
  split
  · rename_i hle; exact ⟨key.mp hle, hhigh⟩
  · rename_i hle
    refine ⟨hlow.le, ?_⟩
    rw [sub_add_cancel]; exact lt_of_not_ge fun h' => hle (key.mpr h')

/-- With enough fuel, `ilog10Nat` is the integer logarithm. -/
theorem ilog10Nat_spec : ∀ fuel n, 0 < n → n < 10 ^ fuel →
    10 ^ ilog10Nat fuel n ≤ n ∧ n < 10 ^ (ilog10Nat fuel n + 1) := by
  intro fuel
  induction fuel with
  | zero => intro n h0 h; simp at h; omega
  | succ f ih =>
    intro n h0 h
    simp only [ilog10Nat]
    split
    · constructor <;> simp <;> omega
    · rename_i h10
      have hlt : n / 10 < 10 ^ f := by
        rw [Nat.div_lt_iff_lt_mul (by decide)]; rw [pow_succ] at h; exact h
      obtain ⟨i1, i2⟩ := ih (n / 10) (by omega) hlt
      rw [show 1 + ilog10Nat f (n / 10) = ilog10Nat f (n / 10) + 1 by omega]
      constructor
      · rw [pow_succ]; omega
      · rw [pow_succ]; omega

/-- With enough fuel, `tensToOne` is the least number of tens that lifts num/den to 1. -/
theorem tensToOne_spec : ∀ fuel num den, den ≤ num * 10 ^ fuel →
    den ≤ num * 10 ^ tensToOne fuel num den ∧
      ∀ j, j < tensToOne fuel num den → num * 10 ^ j < den := by
  intro fuel
  induction fuel with
  | zero => intro num den h; exact ⟨h, fun j hj => by simp [tensToOne] at hj⟩
  | succ f ih =>
    intro num den h
    simp only [tensToOne]
    split
    · rename_i hle; exact ⟨by simpa using hle, fun j hj => by omega⟩
    · rename_i hle
      have h' : den ≤ num * 10 * 10 ^ f := by rw [pow_succ] at h; nlinarith [h]
      obtain ⟨i1, i2⟩ := ih (num * 10) den h'
      refine ⟨by rw [pow_add, pow_one, ← mul_assoc]; exact i1, fun j hj => ?_⟩
      cases j with
      | zero => simp; omega
      | succ j =>
        have := i2 j (by omega)
        rw [pow_succ]; nlinarith [this]

theorem lt_ten_pow_log2 (n : Nat) : n < 10 ^ (Nat.log2 n + 1) :=
  Nat.lt_of_lt_of_le Nat.lt_log2_self (Nat.pow_le_pow_left (by decide) _)

/-- ilog10 is the k of 00_scope.md R11: 10^k ≤ q < 10^(k+1). -/
theorem Ratio.ilog10_spec (q : Ratio) (h : q.num ≠ 0) :
    (10 : ℚ) ^ q.ilog10 ≤ q.toRat ∧ q.toRat < (10 : ℚ) ^ (q.ilog10 + 1) := by
  have hd : (0 : ℚ) < q.den := by exact_mod_cast q.den_pos
  unfold Ratio.ilog10
  split
  · rename_i hle
    have hf : 0 < q.floor := Nat.div_pos hle q.den_pos
    obtain ⟨i1, i2⟩ := ilog10Nat_spec _ _ hf (lt_ten_pow_log2 q.floor)
    set k := ilog10Nat (Nat.log2 q.floor + 1) q.floor
    have e1 : 10 ^ k * q.den ≤ q.num := (Nat.le_div_iff_mul_le q.den_pos).mp i1
    have e2 : q.num < 10 ^ (k + 1) * q.den := (Nat.div_lt_iff_lt_mul q.den_pos).mp i2
    constructor
    · rw [Ratio.toRat, le_div_iff₀ hd, zpow_natCast]; exact_mod_cast e1
    · rw [Ratio.toRat, div_lt_iff₀ hd, ← Nat.cast_succ, zpow_natCast]; exact_mod_cast e2
  · rename_i hle
    have hfuel : q.den ≤ q.num * 10 ^ (Nat.log2 q.den + 1) :=
      le_trans (lt_ten_pow_log2 q.den).le (Nat.le_mul_of_pos_left _ (Nat.pos_of_ne_zero h))
    obtain ⟨i1, i2⟩ := tensToOne_spec _ _ _ hfuel
    set j := tensToOne (Nat.log2 q.den + 1) q.num q.den
    have hj : j ≠ 0 := by intro h0; rw [h0] at i1; simp at i1; omega
    have i3 := i2 (j - 1) (by omega)
    constructor
    · rw [Ratio.toRat, le_div_iff₀ hd, zpow_neg, zpow_natCast, inv_mul_le_iff₀ (by positivity), mul_comm]
      exact_mod_cast i1
    · rw [show (-(j : Int) + 1) = -((j - 1 : Nat) : Int) by omega, Ratio.toRat, div_lt_iff₀ hd, zpow_neg, zpow_natCast,
        inv_mul_eq_div, lt_div_iff₀ (by positivity)]
      exact_mod_cast i3

/-- Rounding to an integer gives one of the two neighbours, the nearer one, and on a tie the even one. -/
theorem Ratio.roundHalfEven_spec (q : Ratio) :
    |(q.roundHalfEven : ℚ) - q.toRat| ≤ 1 / 2 ∧
      (|(q.roundHalfEven : ℚ) - q.toRat| = 1 / 2 → q.roundHalfEven % 2 = 0) := by
  have hd : (0 : ℚ) < q.den := by exact_mod_cast q.den_pos
  have hsplit : (q.num : ℚ) = q.den * (q.num / q.den : ℕ) + (q.num % q.den : ℕ) := by
    exact_mod_cast (Nat.div_add_mod q.num q.den).symm
  have hr : q.num % q.den < q.den := Nat.mod_lt _ q.den_pos
  have hval : q.toRat = (q.num / q.den : ℕ) + (q.num % q.den : ℕ) / (q.den : ℚ) := by
    rw [Ratio.toRat, hsplit]; field_simp
  set n := q.num / q.den with hn
  set r := q.num % q.den with hrr
  unfold Ratio.roundHalfEven
  simp only [← hn, ← hrr]
  have hrq : (0 : ℚ) ≤ r / (q.den : ℚ) := by positivity
  split
  · rename_i hup
    have hge : (1 : ℚ) / 2 ≤ r / (q.den : ℚ) := by
      rw [le_div_iff₀ hd]
      have : q.den ≤ 2 * r := by omega
      have : (q.den : ℚ) ≤ 2 * r := by exact_mod_cast this
      linarith
    have hlt : (r : ℚ) / (q.den : ℚ) < 1 := by rw [div_lt_one hd]; exact_mod_cast hr
    have habs : |((n + 1 : ℕ) : ℚ) - q.toRat| = 1 - r / (q.den : ℚ) := by
      rw [hval, abs_of_nonneg] <;> push_cast <;> linarith
    rw [habs]
    refine ⟨by linarith, fun heq => ?_⟩
    have h2 : (2 : ℚ) * r = q.den := by
      have : (r : ℚ) / q.den = 1 / 2 := by linarith
      rw [div_eq_iff hd.ne'] at this; linarith
    have h2' : 2 * r = q.den := by exact_mod_cast h2
    omega
  · rename_i hdown
    have hle : (r : ℚ) / (q.den : ℚ) ≤ 1 / 2 := by
      rw [div_le_iff₀ hd]
      have : 2 * r ≤ q.den := by omega
      have : (2 : ℚ) * r ≤ q.den := by exact_mod_cast this
      linarith
    have habs : |(n : ℚ) - q.toRat| = r / (q.den : ℚ) := by
      rw [hval, abs_sub_comm, abs_of_nonneg] <;> linarith
    rw [habs]
    refine ⟨hle, fun heq => ?_⟩
    have h2 : (2 : ℚ) * r = q.den := by
      rw [div_eq_iff hd.ne'] at heq; linarith
    have h2' : 2 * r = q.den := by exact_mod_cast h2
    omega

/-- The bits of an assembled pattern as one number. -/
theorem assemble_toNat (sg : BitVec 1) (e f : Nat) (he : e < 2 ^ 11) (hf : f < 2 ^ 52) :
    (assemble sg e f).toNat = sg.toNat * 2 ^ 63 + e * 2 ^ 52 + f := by
  have h1 := sg.isLt
  simp only [assemble, catBits, List.foldl, BitVec.toNat_ofNat]
  omega

/-- The fields of an assembled pattern are what it was assembled from (00_scope.md R12). -/
theorem fields_assemble (sg : BitVec 1) (e f : Nat) (he : e < 2 ^ 11) (hf : f < 2 ^ 52) :
    signBit (assemble sg e f) = sg ∧ expField (assemble sg e f) = e ∧ fracField (assemble sg e f) = f := by
  have h1 := sg.isLt
  refine ⟨?_, ?_, ?_⟩
  · apply BitVec.eq_of_toNat_eq
    rw [signBit, slice_toNat, assemble_toNat _ _ _ he hf]; omega
  · rw [expField, slice_toNat, assemble_toNat _ _ _ he hf]; omega
  · rw [fracField, slice_toNat, assemble_toNat _ _ _ he hf]; omega

/-- A pattern is assembled from its own fields (00_scope.md R12). -/
theorem assemble_fields (b : Pattern) : assemble (signBit b) (expField b) (fracField b) = b := by
  have hb := b.isLt
  apply BitVec.eq_of_toNat_eq
  have he : expField b < 2 ^ 11 := (slice 52 11 b).isLt
  have hf : fracField b < 2 ^ 52 := (slice 0 52 b).isLt
  rw [assemble_toNat _ _ _ he hf, signBit, expField, fracField]
  simp only [slice_toNat]
  omega

/-- Value(b) as a rational number (00_scope.md R12). -/
theorem value_toRat (b : Pattern) :
    (value b).toRat = if expField b = 0 then (fracField b : ℚ) * (2 : ℚ) ^ (-1074 : Int)
      else ((2 ^ 52 + fracField b : ℕ) : ℚ) * (2 : ℚ) ^ ((expField b : Int) - 1075) := by
  unfold value; split <;> simp

end Sys2Proof.Machine
end

