-- ==== Sys2Proof/Laws/PerInstr.lean ====
section
/-! SUPPORT. Laws about each instruction as syntax: its code word stands in its row of opcode_table.json. -/

namespace Sys2Proof.Laws

-- One thread: many kernel evaluations waiting on each other would each hold a stack.
set_option Elab.async false

/-- The match and mask of an instruction's row, copied from opcode_table.json. -/
def rowMatchMask : Instr → Nat × Nat
  | .encode => (0x0, 0x1)
  | .decode => (0x1, 0x1)
  | .gb _ _ _ => (0x0000, 0x8000)
  | .dsEM5 _ _ => (0x8000, 0xF800)
  | .dsEM4 _ _ => (0x8800, 0xF800)
  | .dsEM3 _ _ => (0x9000, 0xF800)
  | .dsEM2 _ _ => (0x9800, 0xF800)
  | .dsEM1 _ _ => (0xA000, 0xF800)
  | .dsEP0 _ _ => (0xA800, 0xF800)
  | .dsEP1 _ _ => (0xB000, 0xF800)
  | .dsEP2 _ _ => (0xB800, 0xF800)
  | .dsEP3 _ _ => (0xC000, 0xF800)
  | .dsEP4 _ _ => (0xC800, 0xF800)
  | .dsEP5 _ _ => (0xD000, 0xF800)
  | .dsEP6 _ _ => (0xE000, 0xF800)
  | .dsEP7 _ _ => (0xE800, 0xF800)
  | .dsEP8 _ _ => (0xF000, 0xF800)
  | .sur _ => (0xD800, 0xF800)
  | .ni _ _ _ => (0xF800, 0xFF00)
  | .rsvF900 _ => (0xF900, 0xFF00)
  | .rsvFA00 _ => (0xFA00, 0xFE00)
  | .rsvFC00 _ => (0xFC00, 0xFE00)
  | .rsvFE00 _ => (0xFE00, 0xFF00)
  | .rsvFF00 _ => (0xFF00, 0xFF80)
  | .rsvFF80 _ => (0xFF80, 0xFFC0)
  | .rsvFFC0 _ => (0xFFC0, 0xFFE0)
  | .rsvFFE0 _ => (0xFFE0, 0xFFF0)
  | .rsvFFF5 => (0xFFF5, 0xFFFF)
  | .rsvFFF6 _ => (0xFFF6, 0xFFFE)
  | .rsvFFF8 _ => (0xFFF8, 0xFFF8)
  | .spPzero => (0xFFF0, 0xFFFF)
  | .spNzero => (0xFFF1, 0xFFFF)
  | .spPinf => (0xFFF2, 0xFFFF)
  | .spNinf => (0xFFF3, 0xFFFF)
  | .spNan => (0xFFF4, 0xFFFF)
  | .chunk _ => (0x0000, 0x8000)
  | .chunkIllegal _ => (0x8000, 0x8000)

/-- The bits of a code word as one number. -/
def codeBits : CodeWord → Nat
  | .cmd v => v.toNat
  | .lead w => w.toNat
  | .cont w => w.toNat

/-- A well-formed instruction's code word matches its row of the table under the row's mask. -/
def RowMatch.Statement (i : Instr) : Prop :=
  i.wf = true → codeBits (encode i) &&& (rowMatchMask i).2 = (rowMatchMask i).1

/-- A word in a row of 2^n words, aligned to 2^n, has the row's match under the row's mask. -/
theorem and_mask_of_range (n base x : Nat) (hb : base % 2 ^ n = 0) (hlo : base ≤ x) (hhi : x < base + 2 ^ n)
    (hn : n ≤ 16) (hx : x < 2 ^ 16) : x &&& (2 ^ 16 - 2 ^ n) = base := by
  have hdiv : x / 2 ^ n = base / 2 ^ n := by
    have h2 : 0 < 2 ^ n := Nat.two_pow_pos n
    obtain ⟨q, rfl⟩ := Nat.dvd_of_mod_eq_zero hb
    rw [Nat.mul_div_cancel_left _ h2, Nat.div_eq_of_lt_le]
    · rw [Nat.mul_comm]; exact hlo
    · rw [Nat.add_mul, Nat.one_mul, Nat.mul_comm q]; omega
  have hmask : 2 ^ 16 - 2 ^ n = (2 ^ (16 - n) - 1) <<< n := by
    rw [Nat.shiftLeft_eq, Nat.sub_mul, Nat.one_mul, ← Nat.pow_add, Nat.sub_add_cancel hn]
  have hbase : base = (base / 2 ^ n) <<< n := by
    rw [Nat.shiftLeft_eq]; exact (Nat.div_mul_cancel (Nat.dvd_of_mod_eq_zero hb)).symm
  rw [hmask]
  apply Nat.eq_of_testBit_eq
  intro i
  rw [Nat.testBit_and, Nat.testBit_shiftLeft, Nat.testBit_two_pow_sub_one]
  conv_rhs => rw [hbase, ← hdiv, Nat.testBit_shiftLeft, Nat.testBit_div_two_pow]
  by_cases hi : n ≤ i
  · by_cases h16 : i - n < 16 - n
    · simp [hi, h16]
    · have : x.testBit i = false := Nat.testBit_lt_two_pow (Nat.lt_of_lt_of_le hx (Nat.pow_le_pow_right (by decide) (by omega)))
      simp [hi, this]
  · simp [hi]

theorem RowMatch.encode : RowMatch.Statement (.encode) := by intro _; decide

theorem RowMatch.decode : RowMatch.Statement (.decode) := by intro _; decide

theorem RowMatch.gb (L : BitVec 2) (sg : BitVec 1) (X : BitVec 12) : RowMatch.Statement (.gb L sg X) := by
  intro _
  have h0 := L.isLt; have h1 := sg.isLt; have h2 := X.isLt
  exact and_mask_of_range 15 0x0000 _ (by decide) (by simp [codeBits, Sys2Proof.encode, gbWord, catBits])
    (by simp [codeBits, Sys2Proof.encode, gbWord, catBits]; omega) (by decide) (BitVec.isLt _)

theorem RowMatch.dsEM5 (sg : BitVec 1) (M : BitVec 10) : RowMatch.Statement (.dsEM5 sg M) := by
  intro _
  have h1 := sg.isLt; have h2 := M.isLt
  exact and_mask_of_range 11 0x8000 _ (by decide) (by simp [codeBits, Sys2Proof.encode, dsWord, catBits]; omega)
    (by simp [codeBits, Sys2Proof.encode, dsWord, catBits]; omega) (by decide) (BitVec.isLt _)

theorem RowMatch.dsEM4 (sg : BitVec 1) (M : BitVec 10) : RowMatch.Statement (.dsEM4 sg M) := by
  intro _
  have h1 := sg.isLt; have h2 := M.isLt
  exact and_mask_of_range 11 0x8800 _ (by decide) (by simp [codeBits, Sys2Proof.encode, dsWord, catBits]; omega)
    (by simp [codeBits, Sys2Proof.encode, dsWord, catBits]; omega) (by decide) (BitVec.isLt _)

theorem RowMatch.dsEM3 (sg : BitVec 1) (M : BitVec 10) : RowMatch.Statement (.dsEM3 sg M) := by
  intro _
  have h1 := sg.isLt; have h2 := M.isLt
  exact and_mask_of_range 11 0x9000 _ (by decide) (by simp [codeBits, Sys2Proof.encode, dsWord, catBits]; omega)
    (by simp [codeBits, Sys2Proof.encode, dsWord, catBits]; omega) (by decide) (BitVec.isLt _)

theorem RowMatch.dsEM2 (sg : BitVec 1) (M : BitVec 10) : RowMatch.Statement (.dsEM2 sg M) := by
  intro _
  have h1 := sg.isLt; have h2 := M.isLt
  exact and_mask_of_range 11 0x9800 _ (by decide) (by simp [codeBits, Sys2Proof.encode, dsWord, catBits]; omega)
    (by simp [codeBits, Sys2Proof.encode, dsWord, catBits]; omega) (by decide) (BitVec.isLt _)

theorem RowMatch.dsEM1 (sg : BitVec 1) (M : BitVec 10) : RowMatch.Statement (.dsEM1 sg M) := by
  intro _
  have h1 := sg.isLt; have h2 := M.isLt
  exact and_mask_of_range 11 0xA000 _ (by decide) (by simp [codeBits, Sys2Proof.encode, dsWord, catBits]; omega)
    (by simp [codeBits, Sys2Proof.encode, dsWord, catBits]; omega) (by decide) (BitVec.isLt _)

theorem RowMatch.dsEP0 (sg : BitVec 1) (M : BitVec 10) : RowMatch.Statement (.dsEP0 sg M) := by
  intro _
  have h1 := sg.isLt; have h2 := M.isLt
  exact and_mask_of_range 11 0xA800 _ (by decide) (by simp [codeBits, Sys2Proof.encode, dsWord, catBits]; omega)
    (by simp [codeBits, Sys2Proof.encode, dsWord, catBits]; omega) (by decide) (BitVec.isLt _)

theorem RowMatch.dsEP1 (sg : BitVec 1) (M : BitVec 10) : RowMatch.Statement (.dsEP1 sg M) := by
  intro _
  have h1 := sg.isLt; have h2 := M.isLt
  exact and_mask_of_range 11 0xB000 _ (by decide) (by simp [codeBits, Sys2Proof.encode, dsWord, catBits]; omega)
    (by simp [codeBits, Sys2Proof.encode, dsWord, catBits]; omega) (by decide) (BitVec.isLt _)

theorem RowMatch.dsEP2 (sg : BitVec 1) (M : BitVec 10) : RowMatch.Statement (.dsEP2 sg M) := by
  intro _
  have h1 := sg.isLt; have h2 := M.isLt
  exact and_mask_of_range 11 0xB800 _ (by decide) (by simp [codeBits, Sys2Proof.encode, dsWord, catBits]; omega)
    (by simp [codeBits, Sys2Proof.encode, dsWord, catBits]; omega) (by decide) (BitVec.isLt _)

theorem RowMatch.dsEP3 (sg : BitVec 1) (M : BitVec 10) : RowMatch.Statement (.dsEP3 sg M) := by
  intro _
  have h1 := sg.isLt; have h2 := M.isLt
  exact and_mask_of_range 11 0xC000 _ (by decide) (by simp [codeBits, Sys2Proof.encode, dsWord, catBits]; omega)
    (by simp [codeBits, Sys2Proof.encode, dsWord, catBits]; omega) (by decide) (BitVec.isLt _)

theorem RowMatch.dsEP4 (sg : BitVec 1) (M : BitVec 10) : RowMatch.Statement (.dsEP4 sg M) := by
  intro _
  have h1 := sg.isLt; have h2 := M.isLt
  exact and_mask_of_range 11 0xC800 _ (by decide) (by simp [codeBits, Sys2Proof.encode, dsWord, catBits]; omega)
    (by simp [codeBits, Sys2Proof.encode, dsWord, catBits]; omega) (by decide) (BitVec.isLt _)

theorem RowMatch.dsEP5 (sg : BitVec 1) (M : BitVec 10) : RowMatch.Statement (.dsEP5 sg M) := by
  intro _
  have h1 := sg.isLt; have h2 := M.isLt
  exact and_mask_of_range 11 0xD000 _ (by decide) (by simp [codeBits, Sys2Proof.encode, dsWord, catBits]; omega)
    (by simp [codeBits, Sys2Proof.encode, dsWord, catBits]; omega) (by decide) (BitVec.isLt _)

theorem RowMatch.dsEP6 (sg : BitVec 1) (M : BitVec 10) : RowMatch.Statement (.dsEP6 sg M) := by
  intro _
  have h1 := sg.isLt; have h2 := M.isLt
  exact and_mask_of_range 11 0xE000 _ (by decide) (by simp [codeBits, Sys2Proof.encode, dsWord, catBits]; omega)
    (by simp [codeBits, Sys2Proof.encode, dsWord, catBits]; omega) (by decide) (BitVec.isLt _)

theorem RowMatch.dsEP7 (sg : BitVec 1) (M : BitVec 10) : RowMatch.Statement (.dsEP7 sg M) := by
  intro _
  have h1 := sg.isLt; have h2 := M.isLt
  exact and_mask_of_range 11 0xE800 _ (by decide) (by simp [codeBits, Sys2Proof.encode, dsWord, catBits]; omega)
    (by simp [codeBits, Sys2Proof.encode, dsWord, catBits]; omega) (by decide) (BitVec.isLt _)

theorem RowMatch.dsEP8 (sg : BitVec 1) (M : BitVec 10) : RowMatch.Statement (.dsEP8 sg M) := by
  intro _
  have h1 := sg.isLt; have h2 := M.isLt
  exact and_mask_of_range 11 0xF000 _ (by decide) (by simp [codeBits, Sys2Proof.encode, dsWord, catBits]; omega)
    (by simp [codeBits, Sys2Proof.encode, dsWord, catBits]; omega) (by decide) (BitVec.isLt _)

theorem RowMatch.sur (w : Word) : RowMatch.Statement (.sur w) := by
  intro h
  have h' := (Word.between_iff _ _ w).mp h
  exact and_mask_of_range 11 0xD800 _ (by decide) (by simpa [codeBits, Sys2Proof.encode] using h'.1)
    (by simp only [codeBits, Sys2Proof.encode]; omega) (by decide) w.isLt

theorem RowMatch.ni (sg : BitVec 1) (L : BitVec 2) (e5 : BitVec 5) : RowMatch.Statement (.ni sg L e5) := by
  intro _
  have h0 := sg.isLt; have h1 := L.isLt; have h2 := e5.isLt
  exact and_mask_of_range 8 0xF800 _ (by decide) (by simp [codeBits, Sys2Proof.encode, niWord, catBits]; omega)
    (by simp [codeBits, Sys2Proof.encode, niWord, catBits]; omega) (by decide) (BitVec.isLt _)

theorem RowMatch.rsvF900 (w : Word) : RowMatch.Statement (.rsvF900 w) := by
  intro h
  have h' := (Word.between_iff _ _ w).mp h
  exact and_mask_of_range 8 0xF900 _ (by decide) (by simpa [codeBits, Sys2Proof.encode] using h'.1)
    (by simp only [codeBits, Sys2Proof.encode]; omega) (by decide) w.isLt

theorem RowMatch.rsvFA00 (w : Word) : RowMatch.Statement (.rsvFA00 w) := by
  intro h
  have h' := (Word.between_iff _ _ w).mp h
  exact and_mask_of_range 9 0xFA00 _ (by decide) (by simpa [codeBits, Sys2Proof.encode] using h'.1)
    (by simp only [codeBits, Sys2Proof.encode]; omega) (by decide) w.isLt

theorem RowMatch.rsvFC00 (w : Word) : RowMatch.Statement (.rsvFC00 w) := by
  intro h
  have h' := (Word.between_iff _ _ w).mp h
  exact and_mask_of_range 9 0xFC00 _ (by decide) (by simpa [codeBits, Sys2Proof.encode] using h'.1)
    (by simp only [codeBits, Sys2Proof.encode]; omega) (by decide) w.isLt

theorem RowMatch.rsvFE00 (w : Word) : RowMatch.Statement (.rsvFE00 w) := by
  intro h
  have h' := (Word.between_iff _ _ w).mp h
  exact and_mask_of_range 8 0xFE00 _ (by decide) (by simpa [codeBits, Sys2Proof.encode] using h'.1)
    (by simp only [codeBits, Sys2Proof.encode]; omega) (by decide) w.isLt

theorem RowMatch.rsvFF00 (w : Word) : RowMatch.Statement (.rsvFF00 w) := by
  intro h
  have h' := (Word.between_iff _ _ w).mp h
  exact and_mask_of_range 7 0xFF00 _ (by decide) (by simpa [codeBits, Sys2Proof.encode] using h'.1)
    (by simp only [codeBits, Sys2Proof.encode]; omega) (by decide) w.isLt

theorem RowMatch.rsvFF80 (w : Word) : RowMatch.Statement (.rsvFF80 w) := by
  intro h
  have h' := (Word.between_iff _ _ w).mp h
  exact and_mask_of_range 6 0xFF80 _ (by decide) (by simpa [codeBits, Sys2Proof.encode] using h'.1)
    (by simp only [codeBits, Sys2Proof.encode]; omega) (by decide) w.isLt

theorem RowMatch.rsvFFC0 (w : Word) : RowMatch.Statement (.rsvFFC0 w) := by
  intro h
  have h' := (Word.between_iff _ _ w).mp h
  exact and_mask_of_range 5 0xFFC0 _ (by decide) (by simpa [codeBits, Sys2Proof.encode] using h'.1)
    (by simp only [codeBits, Sys2Proof.encode]; omega) (by decide) w.isLt

theorem RowMatch.rsvFFE0 (w : Word) : RowMatch.Statement (.rsvFFE0 w) := by
  intro h
  have h' := (Word.between_iff _ _ w).mp h
  exact and_mask_of_range 4 0xFFE0 _ (by decide) (by simpa [codeBits, Sys2Proof.encode] using h'.1)
    (by simp only [codeBits, Sys2Proof.encode]; omega) (by decide) w.isLt

theorem RowMatch.rsvFFF5 : RowMatch.Statement (.rsvFFF5) := by intro _; decide

theorem RowMatch.rsvFFF6 (w : Word) : RowMatch.Statement (.rsvFFF6 w) := by
  intro h
  have h' := (Word.between_iff _ _ w).mp h
  exact and_mask_of_range 1 0xFFF6 _ (by decide) (by simpa [codeBits, Sys2Proof.encode] using h'.1)
    (by simp only [codeBits, Sys2Proof.encode]; omega) (by decide) w.isLt

theorem RowMatch.rsvFFF8 (w : Word) : RowMatch.Statement (.rsvFFF8 w) := by
  intro h
  have h' := (Word.between_iff _ _ w).mp h
  exact and_mask_of_range 3 0xFFF8 _ (by decide) (by simpa [codeBits, Sys2Proof.encode] using h'.1)
    (by simp only [codeBits, Sys2Proof.encode]; omega) (by decide) w.isLt

theorem RowMatch.spPzero : RowMatch.Statement (.spPzero) := by intro _; decide

theorem RowMatch.spNzero : RowMatch.Statement (.spNzero) := by intro _; decide

theorem RowMatch.spPinf : RowMatch.Statement (.spPinf) := by intro _; decide

theorem RowMatch.spNinf : RowMatch.Statement (.spNinf) := by intro _; decide

theorem RowMatch.spNan : RowMatch.Statement (.spNan) := by intro _; decide

theorem RowMatch.chunk (c : BitVec 15) : RowMatch.Statement (.chunk c) := by
  intro _
  have h0 := c.isLt
  exact and_mask_of_range 15 0x0000 _ (by decide) (by simp [codeBits, Sys2Proof.encode, chunkWord, catBits])
    (by simp [codeBits, Sys2Proof.encode, chunkWord, catBits]; omega) (by decide) (BitVec.isLt _)

theorem RowMatch.chunkIllegal (w : Word) : RowMatch.Statement (.chunkIllegal w) := by
  intro h
  have h' := (Word.between_iff _ _ w).mp h
  exact and_mask_of_range 15 0x8000 _ (by decide) (by simpa [codeBits, Sys2Proof.encode] using h'.1)
    (by simp only [codeBits, Sys2Proof.encode]; omega) (by decide) w.isLt

end Sys2Proof.Laws
end

