-- ==== Sys2Proof/Tests/Slice0.lean ====
section
/-! SUPPORT. The package's own tests: ill-formed terms refused, every row's word written out from its encoding, vectors of
95_test_vectors.md, and for every statement with hypotheses a state and operands that meet them. -/

namespace Sys2Proof.Tests

-- One thread: many kernel evaluations waiting on each other would each hold a stack.
set_option Elab.async false

open Sys2Proof.Machine

/-- The state after reset with `ws` in BUF from address 0 on and BUF_LEN = `len`. -/
def withBuf (ws : List Word) (len : Nat) (h : len < 8 := by decide) : State :=
  { State.reset with buf := Memory.writeAll [] 0 ws, bufLen := Off.small len h }

/-- The state after reset with an operand in ENC_IN. -/
def withIn (b : Pattern) : State := { State.reset with encIn := b }

/-- The state an outcome leaves; the state after reset for a stop. -/
def after (o : Host.Outcome State Fault Refusal) : State :=
  match o with
  | .next s => s
  | .fault _ => State.reset
  | .refused _ => State.reset

/-- (ENC_OUT, ENC_LEN) after an ENCODE of the pattern. -/
def encoded (b : Pattern) : List Nat × Nat :=
  let t := after (exec .encode (withIn b))
  (t.encOut.toList.map BitVec.toNat, t.encLen.toNat)

/-- (DEC_STATUS, DEC_VAL, DEC_CONS, DEC_ERRIDX) after a DECODE of the words. -/
def decoded (s : State) : Nat × Nat × Nat × Nat :=
  let t := after (exec .decode s)
  (t.decStatus.toNat, t.decVal.toNat, t.decCons.toNat, t.decErridx.toNat)

/-! ### Ill-formed terms are refused -/

theorem test_sur_ill_formed : (Instr.sur 0xD7FF#16).wf = false ∧ (Instr.sur 0xE000#16).wf = false := by decide
theorem test_rsvF900_ill_formed : (Instr.rsvF900 0xF8FF#16).wf = false ∧ (Instr.rsvF900 0xFA00#16).wf = false := by decide
theorem test_rsvFA00_ill_formed : (Instr.rsvFA00 0xF9FF#16).wf = false ∧ (Instr.rsvFA00 0xFC00#16).wf = false := by decide
theorem test_rsvFC00_ill_formed : (Instr.rsvFC00 0xFBFF#16).wf = false ∧ (Instr.rsvFC00 0xFE00#16).wf = false := by decide
theorem test_rsvFE00_ill_formed : (Instr.rsvFE00 0xFDFF#16).wf = false ∧ (Instr.rsvFE00 0xFF00#16).wf = false := by decide
theorem test_rsvFF00_ill_formed : (Instr.rsvFF00 0xFEFF#16).wf = false ∧ (Instr.rsvFF00 0xFF80#16).wf = false := by decide
theorem test_rsvFF80_ill_formed : (Instr.rsvFF80 0xFF7F#16).wf = false ∧ (Instr.rsvFF80 0xFFC0#16).wf = false := by decide
theorem test_rsvFFC0_ill_formed : (Instr.rsvFFC0 0xFFBF#16).wf = false ∧ (Instr.rsvFFC0 0xFFE0#16).wf = false := by decide
theorem test_rsvFFE0_ill_formed : (Instr.rsvFFE0 0xFFDF#16).wf = false ∧ (Instr.rsvFFE0 0xFFF0#16).wf = false := by decide
theorem test_rsvFFF6_ill_formed : (Instr.rsvFFF6 0xFFF5#16).wf = false ∧ (Instr.rsvFFF6 0xFFF8#16).wf = false := by decide
theorem test_rsvFFF8_ill_formed : (Instr.rsvFFF8 0xFFF7#16).wf = false := by decide
theorem test_chunkIllegal_ill_formed : (Instr.chunkIllegal 0x7FFF#16).wf = false := by decide
theorem test_wbuf_ill_formed : ¬ (HostWrite.buf (2 ^ Config.offWidth) 0#16).wf := Nat.lt_irrefl _

/-! ### Every row's word, written out bit by bit from 30_encoding.md R70 to R79 -/

theorem test_decode_encode : decode (.cmd 0b0#1) = .encode := by decide
theorem test_decode_decode : decode (.cmd 0b1#1) = .decode := by decide
theorem test_decode_gb : decode (.lead 0b0_11_1_100000000001#16) = .gb 3#2 1#1 2049#12 := by decide
theorem test_decode_dsEM5 : decode (.lead 0b1_0000_1_0101101000#16) = .dsEM5 1#1 360#10 := by decide
theorem test_decode_dsEM4 : decode (.lead 0b1_0001_1_0101101000#16) = .dsEM4 1#1 360#10 := by decide
theorem test_decode_dsEM3 : decode (.lead 0b1_0010_1_0101101000#16) = .dsEM3 1#1 360#10 := by decide
theorem test_decode_dsEM2 : decode (.lead 0b1_0011_1_0101101000#16) = .dsEM2 1#1 360#10 := by decide
theorem test_decode_dsEM1 : decode (.lead 0b1_0100_1_0101101000#16) = .dsEM1 1#1 360#10 := by decide
theorem test_decode_dsEP0 : decode (.lead 0b1_0101_1_0101101000#16) = .dsEP0 1#1 360#10 := by decide
theorem test_decode_dsEP1 : decode (.lead 0b1_0110_1_0101101000#16) = .dsEP1 1#1 360#10 := by decide
theorem test_decode_dsEP2 : decode (.lead 0b1_0111_1_0101101000#16) = .dsEP2 1#1 360#10 := by decide
theorem test_decode_dsEP3 : decode (.lead 0b1_1000_1_0101101000#16) = .dsEP3 1#1 360#10 := by decide
theorem test_decode_dsEP4 : decode (.lead 0b1_1001_1_0101101000#16) = .dsEP4 1#1 360#10 := by decide
theorem test_decode_dsEP5 : decode (.lead 0b1_1010_1_0101101000#16) = .dsEP5 1#1 360#10 := by decide
theorem test_decode_dsEP6 : decode (.lead 0b1_1100_1_0101101000#16) = .dsEP6 1#1 360#10 := by decide
theorem test_decode_dsEP7 : decode (.lead 0b1_1101_1_0101101000#16) = .dsEP7 1#1 360#10 := by decide
theorem test_decode_dsEP8 : decode (.lead 0b1_1110_1_0101101000#16) = .dsEP8 1#1 360#10 := by decide
theorem test_decode_sur : decode (.lead 0b1101_1000_0000_0001#16) = .sur 0xD801#16 := by decide
theorem test_decode_ni : decode (.lead 0b11111000_1_01_00010#16) = .ni 1#1 1#2 2#5 := by decide
theorem test_decode_rsvF900 : decode (.lead 0b1111_1001_0000_0001#16) = .rsvF900 0xF901#16 := by decide
theorem test_decode_rsvFA00 : decode (.lead 0b1111_1011_1111_1111#16) = .rsvFA00 0xFBFF#16 := by decide
theorem test_decode_rsvFC00 : decode (.lead 0b1111_1100_0000_0000#16) = .rsvFC00 0xFC00#16 := by decide
theorem test_decode_rsvFE00 : decode (.lead 0b1111_1110_1111_1111#16) = .rsvFE00 0xFEFF#16 := by decide
theorem test_decode_rsvFF00 : decode (.lead 0b1111_1111_0111_1111#16) = .rsvFF00 0xFF7F#16 := by decide
theorem test_decode_rsvFF80 : decode (.lead 0b1111_1111_1000_0000#16) = .rsvFF80 0xFF80#16 := by decide
theorem test_decode_rsvFFC0 : decode (.lead 0b1111_1111_1101_1111#16) = .rsvFFC0 0xFFDF#16 := by decide
theorem test_decode_rsvFFE0 : decode (.lead 0b1111_1111_1110_1111#16) = .rsvFFE0 0xFFEF#16 := by decide
theorem test_decode_rsvFFF5 : decode (.lead 0b1111_1111_1111_0101#16) = .rsvFFF5 := by decide
theorem test_decode_rsvFFF6 : decode (.lead 0b1111_1111_1111_0111#16) = .rsvFFF6 0xFFF7#16 := by decide
theorem test_decode_rsvFFF8 : decode (.lead 0b1111_1111_1111_1000#16) = .rsvFFF8 0xFFF8#16 := by decide
theorem test_decode_spPzero : decode (.lead 0b1111_1111_1111_0000#16) = .spPzero := by decide
theorem test_decode_spNzero : decode (.lead 0b1111_1111_1111_0001#16) = .spNzero := by decide
theorem test_decode_spPinf : decode (.lead 0b1111_1111_1111_0010#16) = .spPinf := by decide
theorem test_decode_spNinf : decode (.lead 0b1111_1111_1111_0011#16) = .spNinf := by decide
theorem test_decode_spNan : decode (.lead 0b1111_1111_1111_0100#16) = .spNan := by decide
theorem test_decode_chunk : decode (.cont 0b0_110010010000111#16) = .chunk 0x6487#15 := by decide
theorem test_decode_chunkIllegal : decode (.cont 0b1_000000000000000#16) = .chunkIllegal 0x8000#16 := by decide
theorem test_decodeTableWord :
    decodeTableWord 8 1 = some .decode ∧ decodeTableWord 8 2 = none ∧ decodeTableWord 16 0x6487 = some (.gb 3#2 0#1 0x487#12) ∧
      decodeTableWord 24 0 = none := by decide

/-! ### ENCODE: vectors of 95_test_vectors.md sections 1 and 2 -/

theorem test_encode_decimal_or_not :
    encoded 0x3FF0000000000000 = ([0x9864, 0, 0, 0, 0], 1) ∧
    encoded 0x3FB999999999999A = ([0x9064, 0, 0, 0, 0], 1) ∧
    encoded 0xC01D000000000000 = ([0x9ED5, 0, 0, 0, 0], 1) ∧
    encoded 0x3F50624DD2F1A9FC = ([0x8064, 0, 0, 0, 0], 1) ∧
    encoded 0x4237428107000000 = ([0xF3E7, 0, 0, 0, 0], 1) ∧
    encoded 0x408F400000000000 = ([0xB064, 0, 0, 0, 0], 1) ∧
    encoded 0x42374876E8000000 = ([0x2424, 0x5D21, 0x6DD0, 0, 0], 3) ∧
    encoded 0x3F50B630A91537A0 = ([0x63F6, 0x42D8, 0x6152, 0x1537, 0x5000], 5) ∧
    encoded 0x3F5522A6F3F52FC3 = ([0x63F6, 0x548A, 0x4DE7, 0x752F, 0x6180], 5) := by decide +kernel

theorem test_encode_binary_and_special :
    encoded 0x400921FB54442D18 = ([0x6401, 0x6487, 0x76A8, 0x442D, 0x0C00], 5) ∧
    encoded 0x0000000000000001 = ([0x6000, 0x0000, 0x0000, 0x0000, 0x0200], 5) ∧
    encoded 0x000FFFFFFFFFFFFF = ([0x6001, 0x7FFF, 0x7FFF, 0x7FFF, 0x7F00], 5) ∧
    encoded 0x0002000000000000 = ([0x0000, 0x2000, 0, 0, 0], 2) ∧
    encoded 0x7FD0000000000000 = ([0x07FE, 0x4000, 0, 0, 0], 2) ∧
    encoded 0xFFE0000000000000 = ([0xF882, 0x4000, 0, 0, 0], 2) ∧
    encoded 0x7FEFFFFFFFFFFFFF = ([0xF862, 0x7FFF, 0x7FFF, 0x7FFF, 0x7F80], 5) ∧
    encoded 0x7FF4000000000001 = ([0xFFF4, 0, 0, 0, 0], 1) ∧
    encoded 0xFFF0000000000000 = ([0xFFF3, 0, 0, 0, 0], 1) := by decide +kernel


/-! ### DECODE: vectors of 95_test_vectors.md sections 1 and 2 -/

theorem test_decode_of_gb :
    decoded (withBuf [0x6401, 0x6487, 0x76A8, 0x442D, 0x0C00] 5) = (0, 0x400921FB54442D18, 5, 0) ∧
    decoded (withBuf [0x1000, 0] 2) = (0, 0x8000000000000000, 2, 0) ∧
    decoded (withBuf [0x07FF, 0x7FFF] 2) = (0, 0x7FEFFFC000000000, 2, 0) := by decide +kernel

theorem test_decode_of_gb_rounds :
    decoded (withBuf [0x6000, 0, 0, 0, 0x0100] 5) = (0, 0, 5, 0) ∧
    decoded (withBuf [0x6000, 0, 0, 0, 0x0180] 5) = (0, 1, 5, 0) ∧
    decoded (withBuf [0x0FFF, 0x4000] 2) = (0, 0x7FF0000000000000, 2, 0) := by decide +kernel

theorem test_decode_of_ni :
    decoded (withBuf [0xF882, 0x4000] 2) = (0, 0xFFE0000000000000, 2, 0) ∧
    decoded (withBuf [0xF803, 0x2000] 2) = (0, 0x7FE0000000000000, 2, 0) ∧
    decoded (withBuf [0xF862, 0x7FFF, 0x7FFF, 0x7FFF, 0x7FC0] 5) = (0, 0x7FF0000000000000, 5, 0) := by decide +kernel

theorem test_decode_of_ds :
    decoded (withBuf [0x8968] 1) = (0, 0x3FA26E978D4FDF3B, 1, 0) ∧
    decoded (withBuf [0xE064] 1) = (0, 0x4197D78400000000, 1, 0) ∧
    decoded (withBuf [0x8400] 1) = (0, 0x8000000000000000, 1, 0) ∧
    decoded (withBuf [0xF7FF] 1) = (0, 0xC237D18E1F000000, 1, 0) := by decide +kernel

theorem test_decode_of_special_and_forbidden :
    decoded (withBuf [0xFFF3] 1) = (0, 0xFFF0000000000000, 1, 0) ∧
    decoded (withBuf [0xD900] 1) = (1, 0, 0, 0) ∧
    decoded (withBuf [0xFFFF] 1) = (1, 0, 0, 0) := by decide +kernel

theorem test_decode_of_bad_chunks :
    decoded (withBuf [0x6000, 0xD800] 2) = (1, 0, 0, 1) ∧
    decoded (withBuf [0x2424, 0x5D21, 0xD800] 3) = (1, 0, 0, 2) := by decide +kernel

theorem test_decode_of_truncated :
    decoded (withBuf [] 0) = (2, 0, 0, 0) ∧
    decoded (withBuf [0x2424, 0x5D21] 2) = (2, 0, 0, 2) ∧
    decoded (withBuf [0x6000, 0, 0, 0] 4) = (2, 0, 0, 4) := by decide +kernel


/-! ### The host's side -/

theorem test_step_runs_placed_word :
    (after (step (State.reset.withFetchWord 16 0x0400))).decCons = 2#3 ∧
      (after (step (State.reset.withFetchWord 8 0))).encOut[0] = 0xFFF0#16 := by decide +kernel

theorem test_write_keeps_order :
    Memory.writeAll [] 0 [1, 2, 3] = [(0, 1), (1, 2), (2, 3)] ∧ Memory.write [(0, 1), (4, 2)] 3 9 = [(0, 1), (3, 9), (4, 2)] ∧
      Memory.write [(3, 1)] 3 2 = [(3, 2)] := by decide

theorem test_put_expands :
    State.expandPut 7 (after (exec .encode (withIn 0x42374876E8000000#64))) =
      [.write (.buf 7 0x2424), .write (.buf 8 0x5D21), .write (.buf 9 0x6DD0)] := by decide +kernel

theorem test_cmd_reads_zero : hostRead .cmd State.reset = 0 ∧ hostRead (.result .decStatus) State.reset = 3 := by decide

/-! ### Witnesses: states and operands that meet the hypotheses of the statements -/

/-- A state in the middle of a value, as CHUNK meets it: one of L + 1 = `len` + 1 chunks accepted. -/
def midValue (len : BitVec 2) : State :=
  { State.reset with decoding := some { kind := .gb 1024#12, sg := 0#1, len := len, taken := 1, m60 := 0x800000000000000#60 } }

theorem test_witness_ResetState :
    (withBuf [0xFFF0] 0).bufLen = State.reset.bufLen ∧ (withBuf [0xFFF0] 0).readWord 0 = none := by decide

theorem test_witness_ResetInputResets : (State.reset.setPending [.reset]).pending = .reset :: [] := rfl

theorem test_witness_StepRunsDecodedInstruction :
    ((withBuf [0xFFF1] 1).setPending [.cmd 1#1]).pending = .cmd 1#1 :: [] ∧
      ((withBuf [0xFFF1] 1).setPending [.cmd 1#1]).readWord 0 = some 0xFFF1#16 := by decide

theorem test_witness_DecodeRunsTheLeadWordsRow : (withBuf [0x6401] 1).readWord 0 = some 0x6401#16 := by decide

theorem test_witness_HostRegisterWrites :
    (State.reset.setPending [.write (.readOnly .decVal 1#64)]).pending = .write (.readOnly .decVal 1#64) :: [] ∧
    (State.reset.setPending [.write (.encIn 1#64)]).pending = .write (.encIn 1#64) :: [] ∧
    (State.reset.setPending [.write (.bufLen (Off.small 5 (by decide)))]).pending =
      .write (.bufLen (Off.small 5 (by decide))) :: [] ∧
    (State.reset.setPending [.write (.decOff (Off.small 7 (by decide)))]).pending =
      .write (.decOff (Off.small 7 (by decide))) :: [] := ⟨rfl, rfl, rfl, rfl⟩

theorem test_witness_HostWritesOneWord :
    (State.reset.setPending [.write (.buf 7 1#16)]).pending = .write (.buf 7 1#16) :: [] ∧ 7 < 2 ^ Config.offWidth ∧
    2 ^ Config.offWidth - 1 < 2 ^ Config.offWidth ∧ 2 ^ Config.offWidth ≤ 2 ^ Config.offWidth :=
  ⟨rfl, Config.eight_le_addresses, Nat.sub_lt (Nat.two_pow_pos _) Nat.one_pos, Nat.le_refl _⟩

theorem test_witness_PutAndNextExpand :
    (State.reset.setPending [.put 0]).pending = .put 0 :: [] ∧ (State.reset.setPending [.put 0]).encLen.toNat ≤ 5 ∧
    (State.reset.setPending [.next]).pending = .next :: [] ∧
    (State.reset.setPending [.next]).decOff.toNat + (State.reset.setPending [.next]).decCons.toNat < 2 ^ Config.offWidth ∧
    (∃ t, exec .decode State.reset = .next t ∧ t.decStatus ≠ 0#2) :=
  ⟨rfl, by decide, rfl, Nat.two_pow_pos _, _, rfl, by decide⟩

/-- Every kind of host write is well formed at some address, BUF also at the last one. -/
theorem test_witness_CommandSeesEarlierWritesOnly :
    (HostWrite.buf (2 ^ Config.offWidth - 1) 1#16).wf ∧ (HostWrite.encIn 1#64).wf ∧ (HostWrite.bufLen (Off.small 1 (by decide))).wf ∧
    (HostWrite.decOff (Off.small 1 (by decide))).wf ∧
    (State.reset.setPending [.write (.decOff (Off.small 1 (by decide))), .cmd 1#1]).pending =
      .write (.decOff (Off.small 1 (by decide))) :: .cmd 1#1 :: [] ∧
    (∃ t1 t2, step (State.reset.setPending [.write (.encIn 0#64), .cmd 0#1]) = .next t1 ∧ step t1 = .next t2) ∧
    (State.reset.setPending [.cmd 1#1, .write (.bufLen (Off.small 1 (by decide)))]).pending =
      .cmd 1#1 :: .write (.bufLen (Off.small 1 (by decide))) :: [] :=
  ⟨Nat.sub_lt (Nat.pow_pos (by decide)) (by decide), trivial, trivial, trivial, rfl, ⟨_, _, rfl, rfl⟩, rfl⟩

/-- The state after reset meets the invariant (also the statement ResetMeetsInv's content, here as a plain witness that a
DECODE step is taken from such a state). -/
theorem test_witness_EveryStepKeepsInv :
    Memory.wf State.reset.buf ∧ State.reset.decoding = none ∧ ∃ t, step (State.reset.setPending [.cmd 1#1]) = .next t :=
  ⟨List.Pairwise.nil, rfl, _, rfl⟩

theorem test_witness_DecodeOfEncode :
    (Instr.sur 0xD800#16).wf = true ∧ (Instr.sur 0xDFFF#16).wf = true ∧ (Instr.rsvFFE0 0xFFEF#16).wf = true ∧
      (Instr.chunkIllegal 0x8000#16).wf = true ∧ (Instr.gb 3#2 1#1 4095#12).wf = true := by decide

theorem test_witness_RoundingIsNearestEven :
    (Ratio.ofNat 1).toRat < overflowBound ∧ expField 0#64 ≠ 2047 ∧
    overflowBound ≤ (Ratio.ofNat ((2 ^ 54 - 1) * 2 ^ 970)).toRat ∧
    (∃ (q : Ratio) (b : Pattern), (value (roundToBinary64 0#1 q)).toRat = 2 ^ 53 ∧ (value b).toRat = 2 ^ 53 + 2 ∧
      q.toRat = 2 ^ 53 + 1) := by
  have hpow : (1 : ℚ) ≤ 2 ^ 970 := one_le_pow₀ (by norm_num)
  refine ⟨?_, by decide, ?_, Ratio.ofNat (2 ^ 53 + 1), 0x4340000000000001#64, ?_, ?_, ?_⟩
  · rw [overflowBound, Ratio.toRat]; simp only [Ratio.ofNat]; push_cast
    generalize (2 : ℚ) ^ 970 = x at *; linarith
  · rw [overflowBound, Ratio.toRat]; simp only [Ratio.ofNat]; rw [Nat.cast_mul, Nat.cast_pow, Nat.cast_one, div_one, Nat.cast_ofNat]
    generalize (2 : ℚ) ^ 970 = x at *; norm_num
  · have : roundToBinary64 0#1 (Ratio.ofNat (2 ^ 53 + 1)) = 0x4340000000000000#64 := by decide +kernel
    rw [this, show value 0x4340000000000000#64 = ⟨2 ^ 53, 1, Nat.one_pos⟩ by decide +kernel]; norm_num [Ratio.toRat]
  · rw [show value 0x4340000000000001#64 = ⟨2 ^ 53 + 2, 1, Nat.one_pos⟩ by decide +kernel]; norm_num [Ratio.toRat]
  · norm_num [Ratio.toRat, Ratio.ofNat]

theorem test_witness_ExtractIsExact :
    classify 0x0010000000000000#64 = .normal ∧ classify 0x7FEFFFFFFFFFFFFF#64 = .normal ∧
      classify 0x0000000000000001#64 = .subnormal ∧ classify 0x000FFFFFFFFFFFFF#64 = .subnormal := by decide

theorem test_witness_ExtractedFractionShape :
    classify 0x3FF0000000000000#64 = .normal ∧
    (classify 0x0008000000000000#64 = .subnormal ∧ (extract 0x0008000000000000#64).1 = -1023) ∧
    (classify 0x0007FFFFFFFFFFFF#64 = .subnormal ∧ (extract 0x0007FFFFFFFFFFFF#64).1 = -1024) ∧
    (classify 0x0000000000000001#64 = .subnormal ∧ (extract 0x0000000000000001#64).1 = -1024) := by decide +kernel

theorem test_witness_ExtractHandsOffTheTopBinade :
    (classify 0x7FE0000000000000#64 = .normal ∧ 1023 ≤ (extract 0x7FE0000000000000#64).1) ∧
    (classify 0x7FDFFFFFFFFFFFFF#64 = .normal ∧ (extract 0x7FDFFFFFFFFFFFFF#64).1 = 1022) ∧
    classify 0x0000000000000001#64 = .subnormal := by decide +kernel

theorem test_witness_PackGivesTheDigits :
    (0x800000000000000#60 ≠ 0#60 ∧ (pack 0x800000000000000#60).length = 1) ∧
    (0x000000000000200#60 ≠ 0#60 ∧ (pack 0x000000000000200#60).length = 4) := by decide

theorem test_witness_UnpackOfPack : 0x800000000008000#60 ≠ 0#60 ∧ unpack (pack 0x800000000008000#60) = 0x800000000008000#60 := by
  decide

theorem test_witness_UnpackIsTheSum :
    1 ≤ [0x1234#15, 0x5678#15].length ∧ [0x1234#15, 0x5678#15].length ≤ 4 ∧
      (unpack [0x1234#15, 0x5678#15]).toNat = 0x246959E00000000 := by decide

theorem test_witness_EncodeFrame :
    (withIn 0#64).encIn = (withBuf [1] 1).encIn ∧ (∃ t, exec .encode (withIn 0#64) = .next t) ∧
      ∃ t', exec .encode (withBuf [1] 1) = .next t' := ⟨rfl, ⟨_, rfl⟩, _, rfl⟩

theorem test_witness_EncodeSpecialValues :
    (withIn 0x0000000000000000#64).encIn = 0x0000000000000000#64 ∧ (withIn 0x8000000000000000#64).encIn = 0x8000000000000000#64 ∧
    (withIn 0x7FF0000000000000#64).encIn = 0x7FF0000000000000#64 ∧ (withIn 0xFFF0000000000000#64).encIn = 0xFFF0000000000000#64 ∧
    (expField 0x7FF0000000000001#64 = 2047 ∧ fracField 0x7FF0000000000001#64 ≠ 0) ∧
    (expField 0xFFFFFFFFFFFFFFFF#64 = 2047 ∧ fracField 0xFFFFFFFFFFFFFFFF#64 ≠ 0) := by decide

theorem test_witness_EncodeGeneralBinary :
    (classify (withIn 0x400921FB54442D18#64).encIn = .normal ∧ expField (withIn 0x400921FB54442D18#64).encIn ≠ 2046 ∧
      dsEncode (withIn 0x400921FB54442D18#64).encIn = none) ∧
    (classify (withIn 0x0000000000000001#64).encIn = .subnormal ∧ expField (withIn 0x0000000000000001#64).encIn ≠ 2046 ∧
      dsEncode (withIn 0x0000000000000001#64).encIn = none) := by decide +kernel

theorem test_witness_EncodeNearInfinity :
    expField (withIn 0x7FE0000000000000#64).encIn = 2046 ∧ expField (withIn 0xFFEFFFFFFFFFFFFF#64).encIn = 2046 := by decide

theorem test_witness_NearInfinityLeadWords :
    expField (withIn 0x7FEFFFFFFFFFFFFF#64).encIn = 2046 ∧ (∃ t, exec .encode (withIn 0x7FEFFFFFFFFFFFFF#64) = .next t) ∧
      0 ≤ 3 ∧ 3 ≤ 3 := ⟨by decide, ⟨_, rfl⟩, by decide, by decide⟩

theorem test_witness_NoGeneralBinaryLeadAbove2046 :
    ∃ t, exec .encode (withIn 0x7FD0000000000000#64) = .next t ∧ (t.encOut[0]).toNat < 0x8000 :=
  ⟨_, rfl, by decide +kernel⟩

theorem test_witness_EncodeDecimal :
    dsEncode 0x3F50624DD2F1A9FC#64 = some 0x8064#16 ∧ dsEncode 0xC237428107000000#64 = some 0xF7E7#16 ∧
    (classify (withIn 0x3FF0000000000000#64).encIn = .normal ∧ expField (withIn 0x3FF0000000000000#64).encIn ≠ 2046 ∧
      dsEncode (withIn 0x3FF0000000000000#64).encIn = some 0x9864#16) := by decide +kernel

theorem test_witness_DecimalWordDecodesToItsOperand : dsEncode 0xBFB999999999999A#64 = some 0x9464#16 := by decide +kernel

theorem test_witness_DecimalEligibility :
    (classify 0x3FF0000000000000#64 = .normal ∧ expField 0x3FF0000000000000#64 ≤ 2045 ∧ dsEncode 0x3FF0000000000000#64 ≠ none) ∧
    (classify 0x7FDFFFFFFFFFFFFF#64 = .normal ∧ expField 0x7FDFFFFFFFFFFFFF#64 ≤ 2045 ∧ dsEncode 0x7FDFFFFFFFFFFFFF#64 = none) ∧
    0x3FF0000000000000#64 = roundToBinary64 (signBit 0x3FF0000000000000#64) ((Ratio.ofNat 100).mulPow10 (-2)) := by
  decide +kernel

theorem test_witness_GbDeliversItsValue :
    [0x4000#15].length = (0#2).toNat + 1 ∧ (withBuf [0x0400, 0x4000] 2).offersChunks [0x4000#15] := by
  refine ⟨rfl, ?_⟩; unfold State.offersChunks; decide

theorem test_witness_NiDeliversItsValue :
    [0x7FFF#15, 0x7FFF#15, 0x7FFF#15, 0x7F80#15].length = (3#2).toNat + 1 ∧
      (withBuf [0xF862, 0x7FFF, 0x7FFF, 0x7FFF, 0x7F80] 5).offersChunks [0x7FFF#15, 0x7FFF#15, 0x7FFF#15, 0x7F80#15] := by
  refine ⟨rfl, ?_⟩; unfold State.offersChunks; decide

theorem test_witness_ContinuationRows :
    (∃ p, (midValue 3#2).decoding = some p ∧ p.m60.toNat % 2 ^ (60 - 15 * p.taken.val) = 0 ∧ p.taken.val < p.len.toNat) ∧
    (∃ p, (midValue 1#2).decoding = some p ∧ p.m60.toNat % 2 ^ (60 - 15 * p.taken.val) = 0 ∧ p.taken.val = p.len.toNat) ∧
    State.reset.decoding = none := ⟨⟨_, rfl, by decide, by decide⟩, ⟨_, rfl, by decide, by decide⟩, rfl⟩

theorem test_witness_DecodeDeliversItsValue :
    ((withBuf [0x8000] 1).readWord 0 = some 0x8000#16 ∧ Word.decimal 0x8000#16) ∧
    ((withBuf [0xD7FF] 1).readWord 0 = some 0xD7FF#16 ∧ Word.decimal 0xD7FF#16) ∧
    ((withBuf [0xE000] 1).readWord 0 = some 0xE000#16 ∧ Word.decimal 0xE000#16) ∧
    ((withBuf [0xF7FF] 1).readWord 0 = some 0xF7FF#16 ∧ Word.decimal 0xF7FF#16) ∧
    (withBuf [0xFFF0] 1).readWord 0 = some 0xFFF0#16 ∧ (withBuf [0xFFF1] 1).readWord 0 = some 0xFFF1#16 ∧
    (withBuf [0xFFF2] 1).readWord 0 = some 0xFFF2#16 ∧ (withBuf [0xFFF3] 1).readWord 0 = some 0xFFF3#16 ∧
    (withBuf [0xFFF4] 1).readWord 0 = some 0xFFF4#16 ∧
    ((withBuf [0x0000, 1] 2).readWord 0 = some 0x0000#16 ∧ Word.chunkCount 0x0000#16 = some [1#15].length ∧
      (withBuf [0x0000, 1] 2).offersChunks [1#15]) ∧
    ((withBuf [0x7FFF, 1, 2, 3, 4] 5).readWord 0 = some 0x7FFF#16 ∧
      Word.chunkCount 0x7FFF#16 = some [1#15, 2#15, 3#15, 4#15].length ∧
      (withBuf [0x7FFF, 1, 2, 3, 4] 5).offersChunks [1#15, 2#15, 3#15, 4#15]) ∧
    ((withBuf [0xF800, 1] 2).readWord 0 = some 0xF800#16 ∧ Word.chunkCount 0xF800#16 = some [1#15].length ∧
      (withBuf [0xF800, 1] 2).offersChunks [1#15]) ∧
    ((withBuf [0xF8FF, 1, 2, 3, 4] 5).readWord 0 = some 0xF8FF#16 ∧
      Word.chunkCount 0xF8FF#16 = some [1#15, 2#15, 3#15, 4#15].length ∧
      (withBuf [0xF8FF, 1, 2, 3, 4] 5).offersChunks [1#15, 2#15, 3#15, 4#15]) := by
  unfold State.offersChunks Word.decimal
  decide

theorem test_witness_DecodeStopsAtFirstFailingWord :
    State.reset.bufLen.toNat ≤ State.reset.decOff.toNat ∧
    ((withBuf [0xD800] 1).readWord 0 = some 0xD800#16 ∧ Word.forbidden 0xD800#16) ∧ Word.forbidden 0xDFFF#16 ∧
    Word.forbidden 0xF900#16 ∧ Word.forbidden 0xFFEF#16 ∧ Word.forbidden 0xFFF5#16 ∧ Word.forbidden 0xFFFF#16 ∧
    ((withBuf [0x6000] 1).readWord 0 = some 0x6000#16 ∧ Word.chunkCount 0x6000#16 = some 4 ∧
      (withBuf [0x6000] 1).bufLen.toNat ≤ (withBuf [0x6000] 1).decOff.toNat + 1) ∧
    ((withBuf [0x6000, 0x8000] 2).readWord 1 = some 0x8000#16) ∧
    ((withBuf [0x6000, 0, 0x7FFF, 1, 0xFFFF] 5).readWord 0 = some 0x6000#16 ∧
      (∀ j, j < 4 → 1 ≤ j → ∃ v, (withBuf [0x6000, 0, 0x7FFF, 1, 0xFFFF] 5).readWord j = some v ∧ v.toNat < 0x8000) ∧
      (withBuf [0x6000, 0, 0x7FFF, 1, 0xFFFF] 5).readWord 4 = some 0xFFFF#16) := by
  refine ⟨by decide, by unfold Word.forbidden; decide, by unfold Word.forbidden; decide, by unfold Word.forbidden; decide,
    by unfold Word.forbidden; decide, by unfold Word.forbidden; decide, by unfold Word.forbidden; decide, by decide, by decide,
    by decide, fun j h4 h1 => ?_, by decide⟩
  match j, h4, h1 with
  | 1, _, _ => exact ⟨0#16, by decide, by decide⟩
  | 2, _, _ => exact ⟨0x7FFF#16, by decide, by decide⟩
  | 3, _, _ => exact ⟨1#16, by decide, by decide⟩

theorem test_witness_AddressSumsNeverWrap :
    State.reset.decOff.toNat + 0 < (withBuf [1] 1).bufLen.toNat ∧ (withBuf [1] 1).readWord 0 = some 1#16 ∧
      2 ^ Config.offWidth ≤ State.reset.decOff.toNat + 2 ^ Config.offWidth := ⟨by decide, by decide, Nat.le_add_left _ _⟩

theorem test_witness_ConsumedLength :
    (∃ t, exec .decode (withBuf [0x9864] 1) = .next t ∧ t.decStatus = 0#2) ∧
    (∃ t, exec .decode (withBuf [0xF802, 1] 2) = .next t ∧ t.decStatus = 0#2 ∧ t.decCons = 2#3 ∧
      (∀ k, k < 2 → (withBuf [0xF802, 1, 0xD800] 3).readWord k = (withBuf [0xF802, 1] 2).readWord k) ∧
      ((withBuf [0xF802] 1).readWord 0 = (withBuf [0xF802, 1] 2).readWord 0 ∧ (withBuf [0xF802] 1).readWord 1 = none) ∧
      (withBuf [] 0).readWord 0 = none) ∧
    (∃ t, exec .decode (withBuf [0xF862, 1, 1, 1, 1] 5) = .next t ∧ t.decStatus = 0#2) :=
  ⟨⟨_, rfl, by decide⟩, ⟨_, rfl, by decide, by decide, by decide, by decide, by decide⟩, _, rfl, by decide⟩

theorem test_witness_DecodeDependsOnlyOnWordsRead :
    ∃ t t', exec .decode (withBuf [0xFFF1] 1) = .next t ∧ exec .decode (withIn 1#64 |>.setWord 0 0xFFF1#16 |>.setBufLen
      (Off.small 1 (by decide))) = .next t' ∧ t.wordsRead = 1 ∧
      (withBuf [0xFFF1] 1).memRead 0 = (withIn 1#64 |>.setWord 0 0xFFF1#16).memRead 0 :=
  ⟨_, _, rfl, rfl, by decide, by decide⟩

theorem test_witness_DecodingRowsFrame :
    Instr.gb 0#2 0#1 0#12 ≠ .encode ∧ ∃ t, exec (.gb 0#2 0#1 0#12) (withBuf [0, 1] 2) = .next t := ⟨by decide, _, rfl⟩

theorem test_witness_ResultsKeptUntilTheirCommand :
    (State.reset.setPending [.cmd 1#1]).pending = .cmd 1#1 :: [] ∧
    ((State.reset.setPending [.cmd 1#1]).pending.head? ≠ some .reset ∧
      (State.reset.setPending [.cmd 1#1]).pending.head? ≠ some (.cmd 0#1) ∧
      ∃ t, step (State.reset.setPending [.cmd 1#1]) = .next t) ∧
    ((State.reset.setPending [.cmd 0#1]).pending.head? ≠ some (.cmd 1#1) ∧
      ∃ t, step (State.reset.setPending [.cmd 0#1]) = .next t) :=
  ⟨rfl, ⟨by decide, by decide, _, rfl⟩, by decide, _, rfl⟩

theorem test_witness_FailedDecodeRepeats :
    (∃ t, exec .decode State.reset = .next t ∧ t.decStatus ≠ 0#2) ∧
      ∃ t, exec .decode (withBuf [0xD900] 1) = .next t ∧ t.decStatus ≠ 0#2 := ⟨⟨_, rfl, by decide⟩, _, rfl, by decide⟩

theorem test_witness_MultiWordValueRange :
    overflowBound ≤ ((0x800000000000000#60).toNat : ℚ) * (2 : ℚ) ^ (MultiKind.ni 31#5).scale ∧
    ((0x800000000000000#60).toNat : ℚ) * (2 : ℚ) ^ (MultiKind.ni 2#5).scale < overflowBound ∧
    ((0#60).toNat : ℚ) * (2 : ℚ) ^ (MultiKind.gb 4095#12).scale < overflowBound := by
  have hpow : (0 : ℚ) < 2 ^ 970 := by positivity
  refine ⟨?_, ?_, ?_⟩
  · rw [show (MultiKind.ni 31#5).scale = ((970 + 23 : ℕ) : ℤ) by decide, zpow_natCast, pow_add, overflowBound,
      show (0x800000000000000#60).toNat = 2 ^ 59 by decide]
    push_cast; generalize (2 : ℚ) ^ 970 = x at *; linarith
  · rw [show (MultiKind.ni 2#5).scale = ((970 : ℕ) : ℤ) - 6 by decide, zpow_sub₀ two_ne_zero, zpow_natCast, overflowBound,
      show (0x800000000000000#60).toNat = 2 ^ 59 by decide]
    push_cast; generalize (2 : ℚ) ^ 970 = x at *; norm_num; linarith
  · rw [overflowBound, show (0#60).toNat = 0 by decide]; push_cast; rw [zero_mul]
    generalize (2 : ℚ) ^ 970 = x at *; linarith

theorem test_witness_DecimalValues : (-5 : Int) ≤ -5 ∧ (8 : Int) ≤ 8 ∧ (0 : Int) ≤ 0 ∧ dsValue 8 0#1 0#10 = 0#64 := by
  decide

theorem test_witness_DecimalWordsReencode :
    Word.decimal 0xA832#16 ∧ (withIn (dsDecode 0xA832#16)).encIn = dsDecode 0xA832#16 ∧
      ∃ t0, exec .encode (withIn (dsDecode 0xA832#16)) = .next t0 ∧ (withBuf [0xA1F4] 1).offersWords t0.encoding := by
  refine ⟨by unfold Word.decimal; decide, rfl, _, rfl, ?_⟩
  have h : State.encoding (State.setEncoding (encodeSequence (withIn (dsDecode 0xA832#16)).encIn) (withIn (dsDecode 0xA832#16)))
      = [0xA1F4#16] := by decide +kernel
  rw [h]; unfold State.offersWords; decide

theorem test_witness_SpecialWordsAreExactlyTheirPatterns :
    ∃ t, exec .encode (withIn 0x7FF8000000000000#64) = .next t ∧ t.encOut[0] = 0xFFF4#16 := ⟨_, rfl, by decide +kernel⟩

theorem test_witness_RoundTrip :
    ∃ t0, exec .encode (withIn 0x400921FB54442D18#64) = .next t0 ∧
      (withBuf [0x6401, 0x6487, 0x76A8, 0x442D, 0x0C00] 5).offersWords t0.encoding := by
  refine ⟨_, rfl, ?_⟩
  have h : State.encoding (State.setEncoding (encodeSequence (withIn 0x400921FB54442D18#64).encIn) (withIn 0x400921FB54442D18#64))
      = [0x6401, 0x6487, 0x76A8, 0x442D, 0x0C00] := by decide +kernel
  rw [h]; unfold State.offersWords; decide

theorem test_witness_BackToBackDecoding :
    ∃ ta tb, exec .encode (withIn 0x42374876E8000000#64) = .next ta ∧ exec .encode (withIn 0x7FF8000000000000#64) = .next tb ∧
      (withBuf [0x2424, 0x5D21, 0x6DD0, 0xFFF4] 4).offersWords (ta.encoding ++ tb.encoding) := by
  refine ⟨_, _, rfl, rfl, ?_⟩
  have h : State.encoding (State.setEncoding (encodeSequence (withIn 0x42374876E8000000#64).encIn) (withIn 0x42374876E8000000#64)) ++
      State.encoding (State.setEncoding (encodeSequence (withIn 0x7FF8000000000000#64).encIn) (withIn 0x7FF8000000000000#64))
      = [0x2424, 0x5D21, 0x6DD0, 0xFFF4] := by decide +kernel
  rw [h]; unfold State.offersWords; decide

end Sys2Proof.Tests
end

