-- ==== Sys2Proof/Proofs/Rounding.lean ====
section
/-! PROOFS. RoundToBinary64 is round to nearest, ties to even (00_scope.md R13). A magnitude q is rounded on the grid of its
binade: the multiples of 2^(k-52), where k is floor(log2 q), or -1022 among the subnormals. Every finite binary64 magnitude
from 2^k on lies on that grid, and 2^k itself does, so the nearest grid point is the nearest of all finite magnitudes. -/

namespace Sys2Proof.Machine

/-! ### Rounding to an integer -/

/-- No natural number is nearer to q than `roundHalfEven`, and another one is as near only where the result is even. -/
theorem Ratio.roundHalfEven_nearest (q : Ratio) (m : ℕ) :
    |(q.roundHalfEven : ℚ) - q.toRat| ≤ |(m : ℚ) - q.toRat| ∧
      (|(q.roundHalfEven : ℚ) - q.toRat| = |(m : ℚ) - q.toRat| → m ≠ q.roundHalfEven →
        q.roundHalfEven % 2 = 0) := by
  obtain ⟨hhalf, heven⟩ := q.roundHalfEven_spec
  by_cases hm : m = q.roundHalfEven
  · exact ⟨by rw [hm], fun _ hne => absurd hm hne⟩
  · have hapart : (1 : ℚ) ≤ |(m : ℚ) - q.roundHalfEven| := by
      have hint : (1 : ℤ) ≤ |(m : ℤ) - q.roundHalfEven| := Int.one_le_abs (by omega)
      exact_mod_cast hint
    have htri : |(m : ℚ) - q.roundHalfEven| ≤ |(m : ℚ) - q.toRat| + |(q.roundHalfEven : ℚ) - q.toRat| := by
      rw [abs_sub_comm (q.roundHalfEven : ℚ)]; exact abs_sub_le _ _ _
    exact ⟨by linarith, fun heq _ => heven (by linarith)⟩

theorem Ratio.le_roundHalfEven (q : Ratio) (m : ℕ) (h : (m : ℚ) ≤ q.toRat) : m ≤ q.roundHalfEven := by
  have hlow := (abs_le.mp q.roundHalfEven_spec.1).1
  have : (m : ℚ) < q.roundHalfEven + 1 := by linarith
  exact Nat.lt_succ_iff.mp (by exact_mod_cast this)

theorem Ratio.roundHalfEven_le (q : Ratio) (m : ℕ) (h : q.toRat ≤ m) : q.roundHalfEven ≤ m := by
  have hhigh := (abs_le.mp q.roundHalfEven_spec.1).2
  have : (q.roundHalfEven : ℚ) < m + 1 := by linarith
  exact Nat.lt_succ_iff.mp (by exact_mod_cast this)

/-- An odd number is rounded up to its even successor from the midpoint on. -/
theorem Ratio.roundHalfEven_eq_succ_iff (q : Ratio) (m : ℕ) (hodd : m % 2 = 1) (h : q.toRat ≤ m + 1) :
    q.roundHalfEven = m + 1 ↔ (m : ℚ) + 1 / 2 ≤ q.toRat := by
  obtain ⟨hhalf, heven⟩ := q.roundHalfEven_spec
  constructor
  · intro hn
    have := (abs_le.mp hhalf).2
    rw [hn] at this; push_cast at this; linarith
  · intro hq
    have hm : m ≤ q.roundHalfEven := q.le_roundHalfEven m (by linarith)
    have hm' : q.roundHalfEven ≤ m + 1 := q.roundHalfEven_le (m + 1) (by exact_mod_cast h)
    by_contra hne
    have hn : q.roundHalfEven = m := by omega
    rw [hn] at hhalf heven
    have htie : |(m : ℚ) - q.toRat| = 1 / 2 := by
      refine le_antisymm hhalf ?_
      rw [abs_sub_comm]; exact le_trans (by linarith) (le_abs_self _)
    have := heven htie
    omega

/-! ### The grid of a magnitude's binade -/

/-- The exponent k of the binade on whose grid q is rounded: floor(log2 q), or -1022 for the subnormals. -/
def Ratio.gridExp (q : Ratio) : Int := max q.floorLog2 (-1022)

/-- q counted in grid units of 2^(k-52). -/
def Ratio.inUnits (q : Ratio) : Ratio := q.mulPow2 (52 - q.gridExp)

/-- The whole number of grid units q is rounded to. -/
def Ratio.units (q : Ratio) : Nat := q.inUnits.roundHalfEven

theorem Ratio.gridExp_ge (q : Ratio) : -1022 ≤ q.gridExp := le_max_right _ _

theorem Ratio.gridExp_of_normal (q : Ratio) (h : -1022 ≤ q.floorLog2) : q.gridExp = q.floorLog2 := max_eq_left h

theorem Ratio.gridExp_of_subnormal (q : Ratio) (h : q.floorLog2 < -1022) : q.gridExp = -1022 := max_eq_right h.le

theorem Ratio.toRat_eq_inUnits (q : Ratio) : q.toRat = q.inUnits.toRat * (2 : ℚ) ^ (q.gridExp - 52) := by
  rw [Ratio.inUnits, Ratio.toRat_mulPow2, mul_assoc, ← zpow_add₀ two_ne_zero]; simp

/-- 2^e in the grid units of the binade k. -/
theorem two_zpow_eq_units (e k : Int) (n : ℕ) (h : e = k - 52 + n) :
    (2 : ℚ) ^ e = (2 ^ n : ℕ) * (2 : ℚ) ^ (k - 52) := by
  rw [h, zpow_add₀ two_ne_zero, zpow_natCast, mul_comm]; push_cast; rfl

theorem Ratio.inUnits_lt_iff (q : Ratio) (x : ℚ) :
    q.inUnits.toRat < x ↔ q.toRat < x * (2 : ℚ) ^ (q.gridExp - 52) := by
  rw [q.toRat_eq_inUnits, mul_lt_mul_iff_left₀ (zpow_pos two_pos _)]

theorem Ratio.le_inUnits_iff (q : Ratio) (x : ℚ) :
    x ≤ q.inUnits.toRat ↔ x * (2 : ℚ) ^ (q.gridExp - 52) ≤ q.toRat := by
  rw [← not_lt, q.inUnits_lt_iff, not_lt]

/-- A magnitude lies below the top of its binade. -/
theorem Ratio.toRat_lt_binade_end (q : Ratio) (h : q.num ≠ 0) : q.toRat < (2 : ℚ) ^ (q.gridExp + 1) := by
  have hk : q.floorLog2 ≤ q.gridExp := le_max_left _ _
  exact (q.floorLog2_spec h).2.trans_le (zpow_le_zpow_right₀ one_le_two (by omega))

theorem Ratio.inUnits_lt (q : Ratio) (h : q.num ≠ 0) : q.inUnits.toRat < (2 ^ 53 : ℕ) := by
  rw [q.inUnits_lt_iff, ← two_zpow_eq_units (q.gridExp + 1) q.gridExp 53 (by omega)]
  exact q.toRat_lt_binade_end h

theorem Ratio.units_le (q : Ratio) (h : q.num ≠ 0) : q.units ≤ 2 ^ 53 :=
  q.inUnits.roundHalfEven_le _ (q.inUnits_lt h).le

/-- A magnitude at or above the least normal one lies at or above the start of its binade. -/
theorem Ratio.binade_start_le (q : Ratio) (h : q.num ≠ 0) (hn : -1022 ≤ q.floorLog2) :
    (2 : ℚ) ^ q.gridExp ≤ q.toRat := by
  rw [q.gridExp_of_normal hn]; exact (q.floorLog2_spec h).1

theorem Ratio.le_units_of_normal (q : Ratio) (h : q.num ≠ 0) (hn : -1022 ≤ q.floorLog2) : 2 ^ 52 ≤ q.units := by
  refine q.inUnits.le_roundHalfEven _ ?_
  rw [q.le_inUnits_iff, ← two_zpow_eq_units q.gridExp q.gridExp 52 (by omega)]
  exact q.binade_start_le h hn

theorem Ratio.units_le_of_subnormal (q : Ratio) (h : q.num ≠ 0) (hs : q.floorLog2 < -1022) : q.units ≤ 2 ^ 52 := by
  refine q.inUnits.roundHalfEven_le _ (le_of_lt ?_)
  rw [q.inUnits_lt_iff, ← two_zpow_eq_units q.gridExp q.gridExp 52 (by omega), q.gridExp_of_subnormal hs]
  exact (q.floorLog2_spec h).2.trans_le (zpow_le_zpow_right₀ one_le_two (by omega))

/-! ### What RoundToBinary64 assembles -/

theorem value_assemble (sg : BitVec 1) (e f : Nat) (he : e < 2 ^ 11) (hf : f < 2 ^ 52) :
    (value (assemble sg e f)).toRat =
      if e = 0 then (f : ℚ) * (2 : ℚ) ^ (-1074 : Int) else ((2 ^ 52 + f : ℕ) : ℚ) * (2 : ℚ) ^ ((e : Int) - 1075) := by
  obtain ⟨-, hexp, hfrac⟩ := fields_assemble sg e f he hf
  rw [value_toRat, hexp, hfrac]

/-- A subnormal significand put below a bare sign carries into the exponent field at 2^52. -/
theorem assemble_zero_or (sg : BitVec 1) (n : Nat) (hn : n ≤ 2 ^ 52) :
    assemble sg 0 0 ||| BitVec.ofNat 64 n = assemble sg (n / 2 ^ 52) (n % 2 ^ 52) := by
  apply BitVec.eq_of_toNat_eq
  rw [BitVec.toNat_or, assemble_toNat _ _ _ (by decide) (by decide), assemble_toNat _ _ _ (by omega) (by omega),
    BitVec.toNat_ofNat, Nat.mod_eq_of_lt (by omega), mul_comm sg.toNat]
  simp only [zero_mul, add_zero]
  rw [← Nat.two_pow_add_eq_or_of_lt (by omega)]
  omega

theorem roundToBinary64_of_zero (sg : BitVec 1) (q : Ratio) (h : q.num = 0) :
    roundToBinary64 sg q = assemble sg 0 0 := by
  rw [roundToBinary64, if_pos h]

theorem roundToBinary64_of_subnormal (sg : BitVec 1) (q : Ratio) (h : q.num ≠ 0) (hs : q.floorLog2 < -1022) :
    roundToBinary64 sg q = assemble sg (q.units / 2 ^ 52) (q.units % 2 ^ 52) := by
  rw [← assemble_zero_or sg _ (q.units_le_of_subnormal h hs), roundToBinary64, if_neg h, if_neg (not_le.mpr hs),
    Ratio.units, Ratio.inUnits, q.gridExp_of_subnormal hs]
  rfl

/-- Where rounding stays below the next power of two, the units are the significand. -/
theorem roundToBinary64_of_normal (sg : BitVec 1) (q : Ratio) (h : q.num ≠ 0) (hn : -1022 ≤ q.floorLog2)
    (hu : q.units ≠ 2 ^ 53) : roundToBinary64 sg q =
      if 1023 < q.gridExp then assemble sg 0x7FF 0 else assemble sg (q.gridExp + 1023).toNat (q.units - 2 ^ 52) := by
  rw [Ratio.units, Ratio.inUnits, q.gridExp_of_normal hn] at hu ⊢
  simp only [roundToBinary64, if_neg h, if_pos hn, if_neg hu]

/-- Where rounding reaches the next power of two, the result is that power. -/
theorem roundToBinary64_of_carry (sg : BitVec 1) (q : Ratio) (h : q.num ≠ 0) (hn : -1022 ≤ q.floorLog2)
    (hu : q.units = 2 ^ 53) : roundToBinary64 sg q =
      if 1023 < q.gridExp + 1 then assemble sg 0x7FF 0 else assemble sg (q.gridExp + 1 + 1023).toNat 0 := by
  rw [Ratio.units, Ratio.inUnits, q.gridExp_of_normal hn] at hu
  rw [q.gridExp_of_normal hn]
  simp only [roundToBinary64, if_neg h, if_pos hn, if_pos hu, Nat.sub_self]

/-- q rounds past the largest finite magnitude. -/
def Ratio.Overflows (q : Ratio) : Prop := 1023 < q.gridExp ∨ q.gridExp = 1023 ∧ q.units = 2 ^ 53

theorem Ratio.floorLog2_of_overflows (q : Ratio) (h : q.Overflows) : -1022 ≤ q.floorLog2 := by
  unfold Overflows gridExp at h; omega

theorem roundToBinary64_of_overflows (sg : BitVec 1) (q : Ratio) (h : q.num ≠ 0) (ho : q.Overflows) :
    roundToBinary64 sg q = assemble sg 2047 0 := by
  have hn := q.floorLog2_of_overflows ho
  unfold Ratio.Overflows at ho
  by_cases hu : q.units = 2 ^ 53
  · rw [roundToBinary64_of_carry sg q h hn hu, if_pos (by omega)]
  · rw [roundToBinary64_of_normal sg q h hn hu, if_pos (by omega)]

/-- A pattern of the sign `sg`, finite, that stands for n units of the grid with exponent k, and whose significand has
the parity of n. -/
structure Represents (sg : BitVec 1) (n : ℕ) (k : Int) (b : Pattern) : Prop where
  sign : signBit b = sg
  finite : expField b ≠ 2047
  exact : (value b).toRat = n * (2 : ℚ) ^ (k - 52)
  parity : fracField b % 2 = n % 2

theorem represents_assemble (sg : BitVec 1) (e f n : Nat) (k : Int) (he : e < 2047) (hf : f < 2 ^ 52)
    (hv : (if e = 0 then (f : ℚ) * (2 : ℚ) ^ (-1074 : Int)
      else ((2 ^ 52 + f : ℕ) : ℚ) * (2 : ℚ) ^ ((e : Int) - 1075)) = n * (2 : ℚ) ^ (k - 52))
    (hp : f % 2 = n % 2) : Represents sg n k (assemble sg e f) := by
  obtain ⟨hsign, hexp, hfrac⟩ := fields_assemble sg e f (by omega) hf
  exact ⟨hsign, by omega, (value_assemble sg e f (by omega) hf).trans hv, by rw [hfrac, hp]⟩

/-- A power of two, 2^k, in the units of any grid. -/
theorem represents_power (sg : BitVec 1) (e n : ℕ) (k j : Int) (he : (e : Int) = k + 1023)
    (hlo : -1022 ≤ k) (hhi : k ≤ 1023)
    (hn : (2 : ℚ) ^ k = n * (2 : ℚ) ^ (j - 52)) (hp : n % 2 = 0) : Represents sg n j (assemble sg e 0) := by
  refine represents_assemble sg e 0 n j (by omega) (by omega) ?_ hp.symm
  rw [if_neg (by omega), ← hn, Nat.add_zero, two_zpow_eq_units k k 52 (by omega), show (e : Int) - 1075 = k - 52 by omega]

/-- A magnitude that does not overflow is rounded to its units. -/
theorem roundToBinary64_represents (sg : BitVec 1) (q : Ratio) (h : q.num ≠ 0) (ho : ¬ q.Overflows) :
    Represents sg q.units q.gridExp (roundToBinary64 sg q) := by
  have hlo := q.gridExp_ge
  have hle := q.units_le h
  unfold Ratio.Overflows at ho
  by_cases hn : -1022 ≤ q.floorLog2
  · by_cases hu : q.units = 2 ^ 53
    · rw [roundToBinary64_of_carry sg q h hn hu, if_neg (by omega), hu]
      exact represents_power sg _ _ (q.gridExp + 1) _ (by omega) (by omega) (by omega)
        (two_zpow_eq_units _ _ 53 (by omega)) (by decide)
    · have hge := q.le_units_of_normal h hn
      rw [roundToBinary64_of_normal sg q h hn hu, if_neg (by omega)]
      refine represents_assemble sg _ _ _ _ (by omega) (by omega) ?_ (by omega)
      rw [if_neg (by omega), show 2 ^ 52 + (q.units - 2 ^ 52) = q.units by omega,
        show ((q.gridExp + 1023).toNat : Int) - 1075 = q.gridExp - 52 by omega]
  · have hs := not_le.mp hn
    have hk := q.gridExp_of_subnormal hs
    have hle' := q.units_le_of_subnormal h hs
    rw [roundToBinary64_of_subnormal sg q h hs]
    by_cases hc : q.units = 2 ^ 52
    · rw [hc, hk, Nat.div_self (by decide), Nat.mod_self]
      exact represents_power sg _ _ (-1022) _ (by decide) (by decide) (by decide)
        (two_zpow_eq_units _ _ 52 (by decide)) (by decide)
    · have hlt : q.units < 2 ^ 52 := by omega
      rw [Nat.div_eq_of_lt hlt, Nat.mod_eq_of_lt hlt, hk]
      exact represents_assemble sg _ _ _ _ (by decide) hlt rfl rfl

/-! ### The finite magnitudes and the grid -/

/-- A finite magnitude at or above the start of the binade k, or any one where k is the subnormals', is a whole number of
its grid units. -/
theorem finite_value_on_grid (b : Pattern) (k : Int) (hlo : -1022 ≤ k)
    (hk : k = -1022 ∨ (2 : ℚ) ^ k ≤ (value b).toRat) :
    ∃ m : ℕ, (value b).toRat = m * (2 : ℚ) ^ (k - 52) := by
  have hf : fracField b < 2 ^ 52 := (slice 0 52 b).isLt
  rw [value_toRat] at hk ⊢
  split at hk
  · next he =>
    have hsub : (fracField b : ℚ) * (2 : ℚ) ^ (-1074 : Int) < (2 : ℚ) ^ (-1022 : Int) := by
      rw [two_zpow_eq_units (-1022) (-1022) 52 (by omega)]
      exact mul_lt_mul_of_pos_right (by exact_mod_cast hf) (by positivity)
    have hk' : k = -1022 := by
      refine hk.resolve_right fun hge => ?_
      have := (zpow_lt_zpow_iff_right₀ (one_lt_two (α := ℚ))).mp (hge.trans_lt hsub)
      omega
    exact ⟨fracField b, by rw [if_pos he, hk']; rfl⟩
  · next he =>
    have hj : k - 52 ≤ (expField b : Int) - 1075 := by
      rcases hk with hk | hge
      · omega
      · have hlt : ((2 ^ 52 + fracField b : ℕ) : ℚ) * (2 : ℚ) ^ ((expField b : Int) - 1075) <
            (2 : ℚ) ^ ((expField b : Int) - 1022) := by
          rw [two_zpow_eq_units ((expField b : Int) - 1022) ((expField b : Int) - 1023) 53 (by omega),
            show (expField b : Int) - 1023 - 52 = expField b - 1075 by omega]
          exact mul_lt_mul_of_pos_right (by exact_mod_cast (by omega : 2 ^ 52 + fracField b < 2 ^ 53)) (by positivity)
        have := (zpow_lt_zpow_iff_right₀ (one_lt_two (α := ℚ))).mp (hge.trans_lt hlt)
        omega
    obtain ⟨d, hd⟩ := Int.le.dest hj
    refine ⟨(2 ^ 52 + fracField b) * 2 ^ d, ?_⟩
    rw [if_neg he, ← hd, zpow_add₀ two_ne_zero, zpow_natCast]
    push_cast; ring

/-- A distance from q to a grid point, counted in units. -/
theorem Ratio.units_dist (q : Ratio) (m : ℕ) :
    |(m : ℚ) * (2 : ℚ) ^ (q.gridExp - 52) - q.toRat| =
      |(m : ℚ) - q.inUnits.toRat| * (2 : ℚ) ^ (q.gridExp - 52) := by
  rw [q.toRat_eq_inUnits, ← sub_mul, abs_mul, abs_of_pos (a := (2 : ℚ) ^ _) (zpow_pos two_pos _)]

/-- Among the whole numbers of grid units, q's rounding is the nearest one to q, with ties to the even one. -/
theorem Ratio.units_nearest (q : Ratio) (m : ℕ) :
    |(q.units : ℚ) * (2 : ℚ) ^ (q.gridExp - 52) - q.toRat| ≤ |(m : ℚ) * (2 : ℚ) ^ (q.gridExp - 52) - q.toRat| ∧
    (|(q.units : ℚ) * (2 : ℚ) ^ (q.gridExp - 52) - q.toRat| = |(m : ℚ) * (2 : ℚ) ^ (q.gridExp - 52) - q.toRat| →
      m ≠ q.units → q.units % 2 = 0) := by
  obtain ⟨hnear, htie⟩ := q.inUnits.roundHalfEven_nearest m
  have hpos : (0 : ℚ) < 2 ^ (q.gridExp - 52) := zpow_pos two_pos _
  rw [q.units_dist, q.units_dist]
  exact ⟨mul_le_mul_of_nonneg_right hnear hpos.le, fun heq => htie (mul_right_cancel₀ hpos.ne' heq)⟩

/-- No finite magnitude is nearer to q than its rounding on the grid; one as near is on the grid too, and the units are even:
a magnitude off the grid lies below the start of q's binade, which is a grid point between it and q. -/
theorem Ratio.units_nearest_finite (q : Ratio) (h : q.num ≠ 0) (b : Pattern) :
    |(q.units : ℚ) * (2 : ℚ) ^ (q.gridExp - 52) - q.toRat| ≤ |(value b).toRat - q.toRat| ∧
    (|(q.units : ℚ) * (2 : ℚ) ^ (q.gridExp - 52) - q.toRat| = |(value b).toRat - q.toRat| →
      (value b).toRat ≠ q.units * (2 : ℚ) ^ (q.gridExp - 52) → q.units % 2 = 0) := by
  by_cases hgrid : q.gridExp = -1022 ∨ (2 : ℚ) ^ q.gridExp ≤ (value b).toRat
  · obtain ⟨m, hm⟩ := finite_value_on_grid b q.gridExp q.gridExp_ge hgrid
    obtain ⟨hnear, htie⟩ := q.units_nearest m
    rw [hm]
    exact ⟨hnear, fun heq hne => htie heq fun hmu => hne (by rw [hmu])⟩
  · obtain ⟨hk, hbelow⟩ := not_or.mp hgrid
    rw [not_le] at hbelow
    have hstart := q.binade_start_le h (by unfold gridExp at hk; omega)
    have hnear := (q.units_nearest (2 ^ 52)).1
    rw [← two_zpow_eq_units q.gridExp q.gridExp 52 (by omega), abs_sub_comm (_ ^ q.gridExp),
      abs_of_nonneg (sub_nonneg.mpr hstart)] at hnear
    have hfar : q.toRat - (2 : ℚ) ^ q.gridExp < |(value b).toRat - q.toRat| := by
      rw [abs_sub_comm]; exact lt_of_lt_of_le (by linarith) (le_abs_self _)
    exact ⟨by linarith, fun heq => absurd heq (by linarith)⟩

/-! ### Overflow -/

/-- The bound in the grid units of the topmost binade: half a unit past the largest finite significand. -/
theorem overflowBound_eq_units : overflowBound = ((2 ^ 53 - 1 : ℕ) + 1 / 2 : ℚ) * (2 : ℚ) ^ ((1023 : Int) - 52) := by
  rw [overflowBound, show (1023 : Int) - 52 = ((970 + 1 : ℕ) : ℤ) by decide, zpow_natCast, pow_succ (2 : ℚ) 970]
  push_cast
  generalize (2 : ℚ) ^ 970 = x
  ring

/-- The bound lies within the topmost binade. -/
theorem overflowBound_between : (2 : ℚ) ^ (1023 : Int) < overflowBound ∧ overflowBound < (2 : ℚ) ^ (1024 : Int) := by
  rw [overflowBound_eq_units, two_zpow_eq_units 1023 1023 52 (by omega), two_zpow_eq_units 1024 1023 53 (by omega)]
  constructor <;> refine mul_lt_mul_of_pos_right ?_ (zpow_pos two_pos _) <;> norm_num

theorem Ratio.overflows_iff (q : Ratio) (h : q.num ≠ 0) : q.Overflows ↔ overflowBound ≤ q.toRat := by
  obtain ⟨hlow, hhigh⟩ := overflowBound_between
  have hend := q.toRat_lt_binade_end h
  unfold Overflows
  rcases lt_trichotomy q.gridExp 1023 with hk | hk | hk
  · have : (2 : ℚ) ^ (q.gridExp + 1) ≤ (2 : ℚ) ^ (1023 : Int) := zpow_le_zpow_right₀ one_le_two (by omega)
    exact iff_of_false (by omega) (by linarith)
  · have hunits : q.units = 2 ^ 53 ↔ overflowBound ≤ q.toRat := by
      rw [overflowBound_eq_units, ← hk, ← q.le_inUnits_iff]
      exact q.inUnits.roundHalfEven_eq_succ_iff (2 ^ 53 - 1) (by decide)
        (by have := q.inUnits_lt h; push_cast at this ⊢; linarith)
    rw [hunits]; exact or_iff_right (by omega) |>.trans (and_iff_right hk)
  · have hstart := q.binade_start_le h (by unfold gridExp at hk; omega)
    have : (2 : ℚ) ^ (1024 : Int) ≤ (2 : ℚ) ^ q.gridExp := zpow_le_zpow_right₀ one_le_two (by omega)
    exact iff_of_true (.inl hk) (by linarith)

/-! ### The statement -/

theorem represents_zero (sg : BitVec 1) : Represents sg 0 (-1022) (assemble sg 0 0) :=
  represents_assemble sg 0 0 0 _ (by decide) (by decide) (by simp) rfl

theorem classify_assemble_inf (sg : BitVec 1) :
    signBit (assemble sg 2047 0) = sg ∧ classify (assemble sg 2047 0) = .inf := by
  obtain ⟨hsign, hexp, hfrac⟩ := fields_assemble sg 2047 0 (by decide) (by decide)
  exact ⟨hsign, by simp [classify, hexp, hfrac]⟩

theorem Ratio.toRat_of_num_eq_zero (q : Ratio) (h : q.num = 0) : q.toRat = 0 := by
  simp [Ratio.toRat, h]

/-- Settles O15: zero is exact; another magnitude overflows, or is rounded on the grid of its binade. -/
theorem roundingIsNearestEven : Obligations.RoundingIsNearestEven := by
  intro sg q
  by_cases h : q.num = 0
  · have hrep := represents_zero sg
    have hval : (value (assemble sg 0 0)).toRat = 0 := by simpa using hrep.exact
    have hbound : 0 < overflowBound := (zpow_pos two_pos _).trans overflowBound_between.1
    rw [roundToBinary64_of_zero sg q h, q.toRat_of_num_eq_zero h, hval]
    refine ⟨hrep.sign, fun _ => ⟨hrep.finite, fun b _ => ⟨?_, fun _ _ => hrep.parity⟩⟩,
      fun hge => absurd hbound hge.not_gt⟩
    simp
  · by_cases ho : q.Overflows
    · obtain ⟨hsign, hinf⟩ := classify_assemble_inf sg
      rw [roundToBinary64_of_overflows sg q h ho]
      exact ⟨hsign, fun hlt => absurd ((q.overflows_iff h).mp ho) hlt.not_ge, fun _ => hinf⟩
    · have hrep := roundToBinary64_represents sg q h ho
      rw [hrep.exact, hrep.parity]
      exact ⟨hrep.sign, fun _ => ⟨hrep.finite, fun b _ => q.units_nearest_finite h b⟩,
        fun hge => absurd ((q.overflows_iff h).mpr hge) ho⟩

end Sys2Proof.Machine
end

section
/-! PROOFS. The statements of 10_state.md: what each register holds after a step. One inversion lemma says everything a
step can do (`stepsTo_of_step`); the invariant (R23) and the frame of the result registers (R32) go through its cases. That
a DECODE depends on the words it reads alone (R31) is a simulation of the reading of one value in two states. -/

namespace Sys2Proof.Machine

/-! ### One step, by the host's next action -/

theorem step_of_cmd {s : State} {v : BitVec 1} {rest : List HostAction} (hp : s.pending = .cmd v :: rest) :
    step s = exec (decodeCmd v) (s.setPending rest) := by
  unfold step; rw [hp]; rfl

theorem step_of_write {s : State} {h : HostWrite} {rest : List HostAction} (hp : s.pending = .write h :: rest) :
    step s = hostWrite h (s.setPending rest) := by
  unfold step; rw [hp]

theorem step_of_write_wf {s : State} {h : HostWrite} {rest : List HostAction} (hp : s.pending = .write h :: rest)
    (hw : h.wf) : step s = .next ((s.setPending rest).withWrite h) := by
  rw [step_of_write hp, hostWrite_of_wf _ _ hw]

/-- A host write that is answered is one of an existing register or address (20_memory.md R50; log 11). -/
theorem wf_of_hostWrite {s t : State} {h : HostWrite} (ht : hostWrite h s = .next t) : h.wf := by
  cases h with
  | buf a w =>
    by_contra hw
    cases (if_neg hw).symm.trans ht
  | encIn v => trivial
  | bufLen v => trivial
  | decOff v => trivial
  | readOnly r v => trivial

theorem exec_encode (s : State) : exec .encode s = .next (s.setEncoding (encodeSequence s.encIn)) := rfl

theorem exec_decode (s : State) : exec .decode s = execDecode s := rfl

/-- What a step from `s` can lead to: one constructor per action of the host, two for the outcomes of a DECODE (10_state.md
R22, 30_encoding.md R70, R86; 60_exceptions.md R302). -/
inductive State.StepsTo (s : State) : State → Prop where
  | idle (hp : s.pending = []) : s.StepsTo s
  | encoded (rest) (hp : s.pending = .cmd 0#1 :: rest) :
      s.StepsTo ((s.setPending rest).setEncoding (encodeSequence s.encIn))
  | delivered (rest v n) (hp : s.pending = .cmd 1#1 :: rest) (hn : 1 ≤ n) (hn' : n ≤ 5) :
      s.StepsTo ((s.setPending rest).deliver v n)
  | raised (rest c k) (hp : s.pending = .cmd 1#1 :: rest) (hk : k ≤ 4) : s.StepsTo ((s.setPending rest).raise c k)
  | written (rest h) (hp : s.pending = .write h :: rest) (hw : h.wf) : s.StepsTo ((s.setPending rest).withWrite h)
  | put (rest a) (hp : s.pending = .put a :: rest) : s.StepsTo (s.setPending (s.expandPut a ++ rest))
  | next (rest) (hp : s.pending = .next :: rest) :
      s.StepsTo (s.setPending (.write (.decOff s.nextOff) :: rest))
  | reset (rest) (hp : s.pending = .reset :: rest) : s.StepsTo (s.setPending rest).hostReset

theorem State.StepsTo.of_cmd {s t : State} {v : BitVec 1} {rest : List HostAction}
    (hp : s.pending = .cmd v :: rest) (ht : step s = .next t) : s.StepsTo t := by
  rw [step_of_cmd hp] at ht
  by_cases hv : v = 0#1
  · subst hv
    cases ht
    exact .encoded rest hp
  · obtain rfl : v = 1#1 := by bv_omega
    rcases execDecode_outcome (s.setPending rest) with ⟨d, n, hn, hn', hd⟩ | ⟨c, k, hk, hd⟩
    · cases hd.symm.trans ht
      exact .delivered rest d n hp hn hn'
    · cases hd.symm.trans ht
      exact .raised rest c k hp hk

/-- Everything a step can do. -/
theorem stepsTo_of_step {s t : State} (ht : step s = .next t) : s.StepsTo t := by
  cases hp : s.pending with
  | nil =>
    unfold step at ht; rw [hp] at ht
    cases ht
    exact .idle hp
  | cons action rest =>
    cases action with
    | cmd v => exact .of_cmd hp ht
    | write h =>
      have hw := wf_of_hostWrite ((step_of_write hp).symm.trans ht)
      cases (step_of_write_wf hp hw).symm.trans ht
      exact .written rest h hp hw
    | put a =>
      unfold step at ht; rw [hp] at ht
      cases ht
      exact .put rest a hp
    | next =>
      unfold step at ht; rw [hp] at ht
      cases ht
      exact .next rest hp
    | reset =>
      unfold step at ht; rw [hp] at ht
      cases ht
      exact .reset rest hp

/-! ### The words ENCODE emits -/

theorem Word.not_forbidden_of_lt {w : Word} (h : w.toNat < 0x8000) : ¬ Word.forbidden w := by
  unfold Word.forbidden; omega

theorem gbWord_not_forbidden (L : BitVec 2) (sg : BitVec 1) (X : BitVec 12) : ¬ Word.forbidden (gbWord L sg X) := by
  have hL := L.isLt; have hsg := sg.isLt; have hX := X.isLt
  exact Word.not_forbidden_of_lt (by rw [gbWord_toNat]; omega)

theorem niWord_not_forbidden (sg : BitVec 1) (L : BitVec 2) (e5 : BitVec 5) : ¬ Word.forbidden (niWord sg L e5) := by
  have hL := L.isLt; have hsg := sg.isLt; have he := e5.isLt
  rw [Word.forbidden, niWord_toNat]
  omega

theorem chunkWord_not_forbidden (c : BitVec 15) : ¬ Word.forbidden (chunkWord c) :=
  Word.not_forbidden_of_lt (by rw [chunkWord_toNat]; exact c.isLt)

/-- A DS word of a legal exponent code: the bump over code 11 skips the surrogates, and code 15 is no DS word
(30_encoding.md R78, R80). -/
theorem dsWord_not_forbidden (E4 : Nat) (sg : BitVec 1) (M : BitVec 10) (h : E4 < 15) (h11 : E4 ≠ 11) :
    ¬ Word.forbidden (dsWord E4 sg M) := by
  have hsg := sg.isLt; have hM := M.isLt
  rw [Word.forbidden, dsWord_toNat _ _ _ (by omega)]
  omega

theorem dsEncode_not_forbidden {b : Pattern} {w : Word} (h : dsEncode b = some w) : ¬ Word.forbidden w := by
  obtain ⟨N, e, _, _, hlo, hhi, _, _, _, _, rfl⟩ := dsEncode_some b w h
  obtain ⟨hlt, hne, _⟩ := dsCode_spec e hlo hhi
  exact dsWord_not_forbidden _ _ _ hlt hne

theorem spEncode_between (b : Pattern) : 0xFFF0 ≤ (spEncode b).toNat ∧ (spEncode b).toNat ≤ 0xFFF4 := by
  unfold spEncode
  split
  · split <;> decide
  · split <;> decide
  all_goals decide

theorem spEncode_not_forbidden (b : Pattern) : ¬ Word.forbidden (spEncode b) := by
  have h := spEncode_between b
  unfold Word.forbidden; omega

theorem leadAndChunks_not_forbidden {lead : Word} (cs : List (BitVec 15)) (h : ¬ Word.forbidden lead) :
    ∀ w ∈ lead :: cs.map chunkWord, ¬ Word.forbidden w :=
  List.forall_mem_cons.mpr ⟨h, List.forall_mem_map.mpr fun c _ => chunkWord_not_forbidden c⟩

/-- No word ENCODE emits is in the surrogate band or the reserved band (30_encoding.md R78, R79; 43_encoder_dispatch.md
R179). -/
theorem encodeSequence_not_forbidden (b : Pattern) : ∀ w ∈ encodeSequence b, ¬ Word.forbidden w := by
  rcases encodeSequence_cases b with h | ⟨w, hw, h⟩ | ⟨_, h⟩ | ⟨_, _, h⟩ <;> rw [h]
  · exact List.forall_mem_singleton.mpr (spEncode_not_forbidden b)
  · exact List.forall_mem_singleton.mpr (dsEncode_not_forbidden hw)
  · exact leadAndChunks_not_forbidden _ (niWord_not_forbidden _ _ _)
  · exact leadAndChunks_not_forbidden _ (gbWord_not_forbidden _ _ _)

/-! ### The invariant, operation by operation -/

/-- ENC_OUT[k] after ENCODE: word k of the sequence, zero beyond it (43_encoder_dispatch.md R177). -/
theorem State.setEncoding_encOut_get (s : State) (seq : List Word) :
    ∀ k : Fin 5, (s.setEncoding seq).encOut[k] = seq.getD k 0#16
  | 0 => rfl
  | 1 => rfl
  | 2 => rfl
  | 3 => rfl
  | 4 => rfl

theorem State.Inv.setPending {s : State} (hs : s.Inv) (q : List HostAction) : (s.setPending q).Inv := { hs with }

theorem State.Inv.setEncoding {s : State} (hs : s.Inv) {seq : List Word} (hlen : seq.length ≤ 5)
    (hseq : ∀ w ∈ seq, ¬ Word.forbidden w) : (s.setEncoding seq).Inv := by
  have hnum : (s.setEncoding seq).encLen.toNat = seq.length := by
    rw [State.setEncoding_encLen, BitVec.toNat_ofNat]; omega
  refine { hs with encLenLegal := by rwa [hnum], encOutLegal := fun k => ?_, encOutRest := fun k hk => ?_ }
  · rw [State.setEncoding_encOut_get]
    rcases lt_or_ge k.val seq.length with hk | hk
    · rw [List.getD_eq_getElem _ _ hk]; exact hseq _ (List.getElem_mem hk)
    · rw [List.getD_eq_default _ _ hk]; exact Word.not_forbidden_of_lt (by decide)
  · rw [hnum] at hk
    rw [State.setEncoding_encOut_get, List.getD_eq_default _ _ hk]

theorem State.Inv.deliver {s : State} (hs : s.Inv) (v : Pattern) {n : Nat} (hn : 1 ≤ n) (hn' : n ≤ 5) :
    (s.deliver v n).Inv where
  __ := hs
  noneDecoding := rfl
  okLegal _ := by simp; omega
  failedLegal h := by simp [statusOk] at h
  idleLegal h := by simp [statusOk] at h

theorem State.Inv.raise {s : State} (hs : s.Inv) (c : Cause) {k : Nat} (hk : k ≤ 4) : (s.raise c k).Inv where
  __ := hs
  noneDecoding := rfl
  okLegal h := by cases c <;> simp [causeCode, statusIllegal, statusTruncated] at h
  failedLegal _ := ⟨rfl, rfl, by simp; omega⟩
  idleLegal h := by cases c <;> simp [causeCode, statusIllegal, statusTruncated] at h

theorem State.Inv.withWrite {s : State} (hs : s.Inv) {h : HostWrite} (hw : h.wf) : (s.withWrite h).Inv := by
  cases h with
  | buf a w =>
    refine { hs with bufCanonical := Memory.write_wf _ _ _ hs.bufCanonical, bufInSpace := fun c hc => ?_ }
    rcases Memory.mem_write_fst _ _ _ c hc with hca | ⟨d, hd, hdc⟩
    · rw [hca]; exact hw
    · rw [← hdc]; exact hs.bufInSpace d hd
  | encIn v => exact { hs with }
  | bufLen v => exact { hs with }
  | decOff v => exact { hs with }
  | readOnly r v => exact hs

theorem State.reset_encOut_get : ∀ k : Fin 5, State.reset.encOut[k] = 0#16 := by decide

/-- Settles O9: every result register is zero and DEC_STATUS is IDLE. -/
theorem resetMeetsInv : Obligations.ResetMeetsInv where
  bufCanonical := State.reset_buf_wf
  bufInSpace _ hc := absurd hc List.not_mem_nil
  noneDecoding := rfl
  encLenLegal := Nat.zero_le 5
  encOutLegal k := by rw [State.reset_encOut_get]; exact Word.not_forbidden_of_lt (by decide)
  encOutRest k _ := State.reset_encOut_get k
  okLegal h := absurd h (by decide)
  failedLegal _ := ⟨rfl, rfl, Nat.zero_le 4⟩
  idleLegal _ := ⟨rfl, rfl, rfl⟩

/-- Reset gives the reset values, from whatever state. -/
theorem State.hostReset_inv (s : State) : s.hostReset.Inv := { resetMeetsInv with }

/-- Settles O10, by the cases of a step: each operation keeps the invariant. -/
theorem everyStepKeepsInv : Obligations.EveryStepKeepsInv := by
  intro s t hs ht
  cases stepsTo_of_step ht with
  | idle => exact hs
  | encoded rest =>
    exact (hs.setPending rest).setEncoding (encodeSequence_length _).2 (encodeSequence_not_forbidden _)
  | delivered rest v n _ hn hn' => exact (hs.setPending rest).deliver v hn hn'
  | raised rest c k _ hk => exact (hs.setPending rest).raise c hk
  | written rest h _ hw => exact (hs.setPending rest).withWrite hw
  | put => exact hs.setPending _
  | next => exact hs.setPending _
  | reset => exact State.hostReset_inv _

/-! ### Host writes, and what a command leaves unchanged -/

/-- Settles O5: each of these writes names an existing register, so its step applies it. -/
theorem hostRegisterWrites : Obligations.HostRegisterWrites :=
  ⟨fun _ _ _ _ hp => step_of_write_wf hp trivial, fun _ _ _ hp => step_of_write_wf hp trivial,
    fun _ _ _ hp => step_of_write_wf hp trivial, fun _ _ _ hp => step_of_write_wf hp trivial, fun _ => rfl⟩

/-- Settles O23: ENCODE writes the sequence of ENC_IN and nothing else. -/
theorem encodeFrame : Obligations.EncodeFrame := by
  refine ⟨fun s t ht => ?_, fun s s' t t' hin ht ht' => ?_⟩
  · cases (exec_encode s).symm.trans ht
    exact ⟨rfl, fun a => rfl⟩
  · cases (exec_encode s).symm.trans ht
    cases (exec_encode s').symm.trans ht'
    rw [hin]
    exact ⟨rfl, rfl⟩

/-- Settles O44, by the cases of a step: ENCODE writes the encode results, DECODE the decode results, reset both. -/
theorem resultsKeptUntilTheirCommand : Obligations.ResultsKeptUntilTheirCommand := by
  refine ⟨fun s t v rest hp ht => ?_, fun s t ht hreset => ?_⟩
  · cases stepsTo_of_step ht with
    | encoded _ hp' | delivered _ _ _ hp' | raised _ _ _ hp' =>
      cases hp.symm.trans hp'
      exact ⟨rfl, rfl, rfl, rfl, rfl⟩
    | idle hp' | written _ _ hp' | put _ _ hp' | next _ hp' | reset _ hp' => cases hp.symm.trans hp'
  · cases stepsTo_of_step ht with
    | idle | put | next => exact ⟨fun _ => ⟨rfl, rfl⟩, fun _ => ⟨rfl, rfl, rfl, rfl⟩⟩
    | written => simp
    | encoded _ hp => exact ⟨fun hne => absurd (by rw [hp]; rfl) hne, fun _ => ⟨rfl, rfl, rfl, rfl⟩⟩
    | delivered _ _ _ hp | raised _ _ _ hp =>
      exact ⟨fun _ => ⟨rfl, rfl⟩, fun hne => absurd (by rw [hp]; rfl) hne⟩
    | reset _ hp => exact absurd (by rw [hp]; rfl) hreset

end Sys2Proof.Machine
end

section
/-! PROOFS. A DECODE depends on DEC_OFF, BUF_LEN and the words it reads alone (10_state.md R31). Two states that agree on
those words, and on which words are missing, take the same branch at each word: the reading of the value runs in step in
both. What the induction turns on is that a word which was read is counted by `State.wordsRead`. -/

namespace Sys2Proof.Machine

/-! ### How many words a result counts -/

theorem State.wordsRead_deliver (s : State) (v : Pattern) {n : Nat} (hn : n ≤ 5) : (s.deliver v n).wordsRead = n := by
  simp [State.wordsRead, statusOk]; omega

theorem State.wordsRead_raise_illegal (s : State) {k : Nat} (hk : k ≤ 4) :
    (s.raise .illegalCodeUnit k).wordsRead = k + 1 := by
  simp [State.wordsRead, causeCode, statusIllegal]; omega

theorem State.wordsRead_raise_truncated (s : State) {k : Nat} (hk : k ≤ 4) :
    (s.raise .truncated k).wordsRead = k := by
  simp [State.wordsRead, causeCode, statusTruncated]; omega

theorem State.le_wordsRead_raise (s : State) (c : Cause) {k : Nat} (hk : k ≤ 4) : k ≤ (s.raise c k).wordsRead := by
  cases c with
  | illegalCodeUnit => rw [State.wordsRead_raise_illegal s hk]; exact Nat.le_succ k
  | truncated => rw [State.wordsRead_raise_truncated s hk]

/-! ### One round of reading a value, by the word that stands there -/

/-- The value being read with one more chunk accepted (45_decoder_dispatch.md R210). -/
def PartialValue.extend (p : PartialValue) (c : BitVec 15) : PartialValue :=
  { p with taken := p.taken + 1, m60 := unpackStep p.m60 p.taken c }

theorem PartialValue.extend_taken (p : PartialValue) (c : BitVec 15) (h : p.taken.val < p.len.toNat) :
    (p.extend c).taken.val = p.taken.val + 1 := by
  have hlen := p.len.isLt
  simp [PartialValue.extend, Fin.val_add]
  omega

theorem State.acceptChunk_last (s : State) (c : BitVec 15) (p : PartialValue) (h : p.len.toNat ≤ p.taken.val) :
    s.acceptChunk c p = s.deliver (multiValue p.kind p.sg (unpackStep p.m60 p.taken c)) (2 + p.taken.val) :=
  if_pos h

theorem State.acceptChunk_more (s : State) (c : BitVec 15) (p : PartialValue) (h : p.taken.val < p.len.toNat) :
    s.acceptChunk c p = { s with decoding := some (p.extend c) } :=
  if_neg h.not_ge

section Rounds

variable {s : State} {p : PartialValue} {w : Word} (fuel : Nat) (hp : s.decoding = some p)
include hp

theorem State.readChunks_of_missing (hw : s.readWord (p.taken.val + 1) = none) :
    State.readChunks (fuel + 1) s = s.raise .truncated (p.taken.val + 1) := by
  rw [State.readChunks_succ fuel s p hp, hw]

theorem State.readChunks_of_illegal (hw : s.readWord (p.taken.val + 1) = some w) (hc : ¬ w.toNat < 0x8000) :
    State.readChunks (fuel + 1) s = s.raise .illegalCodeUnit (p.taken.val + 1) := by
  rw [State.readChunks_succ fuel s p hp, hw]
  exact if_neg hc

theorem State.readChunks_of_chunk (hw : s.readWord (p.taken.val + 1) = some w) (hc : w.toNat < 0x8000) :
    State.readChunks (fuel + 1) s = State.readChunks fuel (s.acceptChunk (slice 0 15 w) p) := by
  rw [State.readChunks_succ fuel s p hp, hw]
  exact if_pos hc

theorem State.readChunks_of_last (hw : s.readWord (p.taken.val + 1) = some w) (hc : w.toNat < 0x8000)
    (hlast : p.len.toNat ≤ p.taken.val) :
    State.readChunks (fuel + 1) s =
      s.deliver (multiValue p.kind p.sg (unpackStep p.m60 p.taken (slice 0 15 w))) (2 + p.taken.val) := by
  rw [State.readChunks_of_chunk fuel hp hw hc, State.acceptChunk_last _ _ _ hlast, State.readChunks_none _ _ rfl]

theorem State.readChunks_of_more (hw : s.readWord (p.taken.val + 1) = some w) (hc : w.toNat < 0x8000)
    (hmore : p.taken.val < p.len.toNat) :
    State.readChunks (fuel + 1) s = State.readChunks fuel { s with decoding := some (p.extend (slice 0 15 w)) } := by
  rw [State.readChunks_of_chunk fuel hp hw hc, State.acceptChunk_more _ _ _ hmore]

/-- A value that is read to its end counts at least the words read before. -/
theorem State.taken_lt_wordsRead_readChunks (h1 : p.taken.val ≤ p.len.toNat) (h2 : p.len.toNat < p.taken.val + fuel) :
    p.taken.val < (State.readChunks fuel s).wordsRead := by
  have hlen := p.len.isLt
  obtain ⟨_, ⟨v, hv⟩ | ⟨c, k, hk, hk', hr⟩⟩ := State.readChunks_finishes fuel s p hp h1 h2
  · rw [hv, State.wordsRead_deliver s v (by omega)]; omega
  · rw [hr]; exact hk.trans_le (s.le_wordsRead_raise c (by omega))

end Rounds

/-! ### Two states that offer the same words -/

/-- READ answers alike in both states for the first n words, and for every word that is missing in the first state. -/
def State.OffersSame (n : Nat) (s s' : State) : Prop :=
  ∀ k, k < n ∨ s.readWord k = none → s'.readWord k = s.readWord k

/-- Two states hold equal results of a DECODE (10_state.md R28). -/
def State.SameResults (t t' : State) : Prop :=
  t.decVal = t'.decVal ∧ t.decCons = t'.decCons ∧ t.decStatus = t'.decStatus ∧ t.decErridx = t'.decErridx

/-- Equal DEC_OFF and BUF_LEN miss the same words (45_decoder_dispatch.md R214). -/
theorem State.offersSame_of_memRead {n : Nat} {s s' : State} (hoff : s.decOff = s'.decOff) (hlen : s.bufLen = s'.bufLen)
    (hmem : ∀ k, k < n → s.memRead (s.decOff.toNat + k) = s'.memRead (s.decOff.toNat + k)) : s.OffersSame n s' := by
  rintro k (hk | hk)
  · simp only [State.readWord, ← hoff, ← hlen, hmem k hk]
  · rw [hk, State.readWord_eq_none, ← hoff, ← hlen]
    exact (State.readWord_eq_none s k).mp hk

theorem State.deliver_sameResults (s s' : State) (v : Pattern) (n : Nat) :
    (s.deliver v n).SameResults (s'.deliver v n) := ⟨rfl, rfl, rfl, rfl⟩

theorem State.raise_sameResults (s s' : State) (c : Cause) (k : Nat) :
    (s.raise c k).SameResults (s'.raise c k) := ⟨rfl, rfl, rfl, rfl⟩

/-- The same value read on in two states that offer the words it reads: the same results. -/
theorem State.readChunks_sameResults : ∀ fuel (s s' : State) (p : PartialValue), s.decoding = some p →
    s'.decoding = some p → p.taken.val ≤ p.len.toNat → p.len.toNat < p.taken.val + fuel →
    s.OffersSame (State.readChunks fuel s).wordsRead s' →
    (State.readChunks fuel s).SameResults (State.readChunks fuel s')
  | 0, _, _, _, _, _, h1, h2, _ => by omega
  | fuel + 1, s, s', p, hp, hp', h1, h2, hsame => by
    have htaken := p.taken.isLt
    cases hw : s.readWord (p.taken.val + 1) with
    | none =>
      have hw' := (hsame _ (.inr hw)).trans hw
      rw [State.readChunks_of_missing fuel hp hw, State.readChunks_of_missing fuel hp' hw']
      exact State.raise_sameResults _ _ _ _
    | some w =>
      by_cases hc : w.toNat < 0x8000
      · rcases h1.lt_or_eq with hmore | hlast
        · rw [State.readChunks_of_more fuel hp hw hc hmore] at hsame ⊢
          have hnext := p.extend_taken (slice 0 15 w) hmore
          have h1' : (p.extend (slice 0 15 w)).taken.val ≤ p.len.toNat := by omega
          have h2' : p.len.toNat < (p.extend (slice 0 15 w)).taken.val + fuel := by omega
          have hread := State.taken_lt_wordsRead_readChunks fuel
            (s := { s with decoding := some (p.extend (slice 0 15 w)) }) rfl h1' h2'
          have hw' := (hsame _ (.inl (hnext ▸ hread))).trans hw
          rw [State.readChunks_of_more fuel hp' hw' hc hmore]
          exact State.readChunks_sameResults fuel _ _ _ rfl rfl h1' h2' hsame
        · rw [State.readChunks_of_last fuel hp hw hc hlast.ge] at hsame ⊢
          rw [State.wordsRead_deliver _ _ (by omega)] at hsame
          have hw' := (hsame _ (.inl (by omega))).trans hw
          rw [State.readChunks_of_last fuel hp' hw' hc hlast.ge]
          exact State.deliver_sameResults _ _ _ _
      · rw [State.readChunks_of_illegal fuel hp hw hc] at hsame ⊢
        rw [State.wordsRead_raise_illegal _ (by omega)] at hsame
        have hw' := (hsame _ (.inl (by omega))).trans hw
        rw [State.readChunks_of_illegal fuel hp' hw' hc]
        exact State.raise_sameResults _ _ _ _

/-! ### The lead word -/

theorem State.decodeMulti_sameResults {s s' : State} (kind : MultiKind) (sg : BitVec 1) (L : BitVec 2)
    (hsame : s.OffersSame (s.decodeMulti kind sg L).wordsRead s') :
    (s.decodeMulti kind sg L).SameResults (s'.decodeMulti kind sg L) :=
  State.readChunks_sameResults 4 (s.beginValue kind sg L) (s'.beginValue kind sg L) _ rfl rfl (Nat.zero_le _)
    L.isLt hsame

/-- What a lead word asks for is decided by its value alone, in every state (45_decoder_dispatch.md R211): one delivered
value, IllegalCodeUnit(0), or the chunks of a GB or NI value. -/
theorem State.decodeLeadWord_cases (w : Word) :
    (∃ v, ∀ s : State, s.decodeLeadWord w = s.deliver v 1) ∨
    (∀ s : State, s.decodeLeadWord w = s.raise .illegalCodeUnit 0) ∨
    (∃ kind sg L, ∀ s : State, s.decodeLeadWord w = s.decodeMulti kind sg L) := by
  by_cases hsur : w.between 0xD800 0xDFFF
  · exact .inr (.inl fun s => by simp [State.decodeLeadWord, hsur])
  by_cases hni : w.between 0xF800 0xF8FF
  · exact .inr (.inr ⟨.ni (slice 0 5 w), slice 7 1 w, slice 5 2 w, fun s => by
      simp [State.decodeLeadWord, hsur, hni]⟩)
  by_cases hsp : w.between 0xFFF0 0xFFF4
  · exact .inl ⟨spDecode w, fun s => by simp [State.decodeLeadWord, hsur, hni, hsp]⟩
  by_cases hrsv : w.between 0xF900 0xFFFF
  · exact .inr (.inl fun s => by simp [State.decodeLeadWord, hsur, hni, hsp, hrsv])
  by_cases hds : w.between 0x8000 0xFFFF
  · exact .inl ⟨dsDecode w, fun s => by simp [State.decodeLeadWord, hsur, hni, hsp, hrsv, hds]⟩
  · exact .inr (.inr ⟨.gb (slice 0 12 w), slice 12 1 w, slice 13 2 w, fun s => by
      simp [State.decodeLeadWord, hsur, hni, hsp, hrsv, hds]⟩)

/-- A DECODE that has read its lead word counts it (45_decoder_dispatch.md R214). -/
theorem State.wordsRead_decodeLeadWord_pos (s : State) (w : Word) : 0 < (s.decodeLeadWord w).wordsRead := by
  obtain ⟨v, h⟩ | h | ⟨kind, sg, L, h⟩ := State.decodeLeadWord_cases w <;> rw [h]
  · rw [State.wordsRead_deliver s v (by decide)]; exact Nat.one_pos
  · rw [State.wordsRead_raise_illegal s (by decide)]; exact Nat.one_pos
  · exact State.taken_lt_wordsRead_readChunks 4 (s := s.beginValue kind sg L) rfl (Nat.zero_le _) L.isLt

theorem State.decodeLeadWord_sameResults {s s' : State} (w : Word)
    (hsame : s.OffersSame (s.decodeLeadWord w).wordsRead s') :
    (s.decodeLeadWord w).SameResults (s'.decodeLeadWord w) := by
  obtain ⟨v, h⟩ | h | ⟨kind, sg, L, h⟩ := State.decodeLeadWord_cases w
  · rw [h, h]; exact State.deliver_sameResults _ _ _ _
  · rw [h, h]; exact State.raise_sameResults _ _ _ _
  · rw [h] at hsame ⊢
    rw [h]; exact State.decodeMulti_sameResults kind sg L hsame

theorem execDecode_of_missing {s : State} (hw : s.readWord 0 = none) :
    execDecode s = .next (s.raise .truncated 0) := by
  unfold execDecode; rw [hw]

theorem execDecode_of_lead {s : State} {w : Word} (hw : s.readWord 0 = some w) :
    execDecode s = .next (s.decodeLeadWord w) := by
  unfold execDecode; rw [hw]

/-- Settles O42: both states miss the lead word, or both read the same one and go on in step. -/
theorem decodeDependsOnlyOnWordsRead : Obligations.DecodeDependsOnlyOnWordsRead := by
  intro s s' t t' ht ht' hoff hlen hmem
  have hsame : s.OffersSame t.wordsRead s' := State.offersSame_of_memRead hoff hlen hmem
  rw [exec_decode] at ht ht'
  cases hw : s.readWord 0 with
  | none =>
    cases (execDecode_of_missing hw).symm.trans ht
    cases (execDecode_of_missing ((hsame 0 (.inr hw)).trans hw)).symm.trans ht'
    exact State.raise_sameResults _ _ _ _
  | some w =>
    cases (execDecode_of_lead hw).symm.trans ht
    have hw' := (hsame 0 (.inl (s.wordsRead_decodeLeadWord_pos w))).trans hw
    cases (execDecode_of_lead hw').symm.trans ht'
    exact State.decodeLeadWord_sameResults w hsame

end Sys2Proof.Machine
end

section
/-! PROOFS. The statements of 20_memory.md: the bound on a word's address (R59), host writes of BUF (R50, R58), the row a
step runs (R60), what a command may write (R52) and in which order actions take effect (R60, R61). The frame rests on what
each row can do (`exec_frame`); the order, on a command running alike whatever host actions wait behind it
(`exec_command`). -/

namespace Sys2Proof.Machine

/-! ### Words of BUF and their addresses -/

/-- Settles O40: BUF_LEN itself is below 2^OFF_WIDTH, so a sum from there on is at or beyond it. -/
theorem addressSumsNeverWrap : Obligations.AddressSumsNeverWrap := by
  intro s k
  refine ⟨?_, fun w hw => (((s.readWord_eq_some k w).mp hw).2).symm, fun hk => ?_⟩
  · rw [Ne, State.readWord_eq_none, not_le]
  · exact (s.readWord_eq_none k).mpr (s.bufLen.isLt.le.trans hk)

/-- The block refuses a write outside BUF's address space (20_memory.md R50; log 11). -/
theorem hostWrite_of_no_address (s : State) {a : Nat} (w : Word) (ha : 2 ^ Config.offWidth ≤ a) :
    hostWrite (.buf a w) s = .fault .noSuchBufAddress :=
  if_neg ha.not_gt

/-- Settles O6: the step is the one write of the word, or the fault. -/
theorem hostWritesOneWord : Obligations.HostWritesOneWord := by
  intro s rest a w hp
  refine ⟨fun ha => ⟨(s.setPending rest).setWord a w, ?_, ?_, fun b hb => ?_, rfl⟩, fun ha => ?_⟩
  · exact step_of_write_wf hp ha
  · exact State.memRead_setWord_same _ a w
  · exact State.memRead_setWord_other _ a b w hb
  · rw [step_of_write hp, hostWrite_of_no_address _ w ha]

/-! ### The lead word's row -/

theorem State.decodeLeadWord_gb {w : Word} (h : w.toNat < 0x8000) (s : State) :
    s.decodeLeadWord w = s.decodeMulti (.gb (slice 0 12 w)) (slice 12 1 w) (slice 13 2 w) := by
  simp only [State.decodeLeadWord, Word.between_iff]
  rw [if_neg (by omega), if_neg (by omega), if_neg (by omega), if_neg (by omega), if_neg (by omega)]

theorem State.decodeLeadWord_ni {w : Word} (h : 0xF800 ≤ w.toNat ∧ w.toNat ≤ 0xF8FF) (s : State) :
    s.decodeLeadWord w = s.decodeMulti (.ni (slice 0 5 w)) (slice 7 1 w) (slice 5 2 w) := by
  simp only [State.decodeLeadWord, Word.between_iff]
  rw [if_neg (by omega), if_pos (by omega)]

theorem State.decodeLeadWord_special {w : Word} (h : 0xFFF0 ≤ w.toNat ∧ w.toNat ≤ 0xFFF4) (s : State) :
    s.decodeLeadWord w = s.deliver (spDecode w) 1 := by
  simp only [State.decodeLeadWord, Word.between_iff]
  rw [if_neg (by omega), if_neg (by omega), if_pos (by omega)]

theorem State.decodeLeadWord_decimal {w : Word} (h : Word.decimal w) (s : State) :
    s.decodeLeadWord w = s.deliver (dsDecode w) 1 := by
  unfold Word.decimal at h
  simp only [State.decodeLeadWord, Word.between_iff]
  rw [if_neg (by omega), if_neg (by omega), if_neg (by omega), if_neg (by omega), if_pos (by omega)]

theorem State.decodeLeadWord_forbidden {w : Word} (h : Word.forbidden w) (s : State) :
    s.decodeLeadWord w = s.raise .illegalCodeUnit 0 := by
  have hlt := w.isLt
  unfold Word.forbidden at h
  simp only [State.decodeLeadWord, Word.between_iff]
  by_cases hsur : 0xD800 ≤ w.toNat ∧ w.toNat ≤ 0xDFFF
  · rw [if_pos hsur]
  · rw [if_neg hsur, if_neg (by omega), if_neg (by omega), if_pos (by omega)]

/-- A DS word read by its exponent code (30_encoding.md R75, R80). -/
theorem State.decodeLeadWord_dsCode (E4 : Nat) {w : Word} (hcode : w.toNat / 2 ^ 11 = 16 + E4)
    (hlegal : E4 ≤ 14 ∧ E4 ≠ 11) (s : State) :
    s.decodeLeadWord w = s.deliver (dsValue (dsExponent E4) (slice 10 1 w) (slice 0 10 w)) 1 := by
  have hdecimal : Word.decimal w := by unfold Word.decimal; omega
  have hslice : (slice 11 4 w).toNat = E4 := by rw [slice_toNat]; omega
  rw [State.decodeLeadWord_decimal hdecimal, dsDecode, hslice]

/-- One test of `decodeLead`. -/
theorem exec_ite {c : Prop} [Decidable c] {i j : Instr} {s : State} {o : Host.Outcome State Fault Refusal}
    (hi : c → exec i s = o) (hj : ¬ c → exec j s = o) : exec (if c then i else j) s = o := by
  split
  · exact hi ‹c›
  · exact hj ‹¬ c›

/-- DECODE after the lead word w is the meaning of w's row (45_decoder_dispatch.md R211); the rows stand in the order of
their ranges, as in `decodeLead`. -/
theorem exec_decodeLead (w : Word) (s : State) : exec (decodeLead w) s = .next (s.decodeLeadWord w) := by
  have hlt := w.isLt
  unfold decodeLead
  repeat' refine exec_ite (fun _ => ?_) fun _ => ?_
  · rw [State.decodeLeadWord_gb (by omega)]; rfl
  · rw [State.decodeLeadWord_dsCode 0 (by omega) (by decide)]; rfl
  · rw [State.decodeLeadWord_dsCode 1 (by omega) (by decide)]; rfl
  · rw [State.decodeLeadWord_dsCode 2 (by omega) (by decide)]; rfl
  · rw [State.decodeLeadWord_dsCode 3 (by omega) (by decide)]; rfl
  · rw [State.decodeLeadWord_dsCode 4 (by omega) (by decide)]; rfl
  · rw [State.decodeLeadWord_dsCode 5 (by omega) (by decide)]; rfl
  · rw [State.decodeLeadWord_dsCode 6 (by omega) (by decide)]; rfl
  · rw [State.decodeLeadWord_dsCode 7 (by omega) (by decide)]; rfl
  · rw [State.decodeLeadWord_dsCode 8 (by omega) (by decide)]; rfl
  · rw [State.decodeLeadWord_dsCode 9 (by omega) (by decide)]; rfl
  · rw [State.decodeLeadWord_dsCode 10 (by omega) (by decide)]; rfl
  · rw [State.decodeLeadWord_forbidden (by unfold Word.forbidden; omega)]; rfl
  · rw [State.decodeLeadWord_dsCode 12 (by omega) (by decide)]; rfl
  · rw [State.decodeLeadWord_dsCode 13 (by omega) (by decide)]; rfl
  · rw [State.decodeLeadWord_dsCode 14 (by omega) (by decide)]; rfl
  · rw [State.decodeLeadWord_ni (by omega)]; rfl
  iterate 8
    · rw [State.decodeLeadWord_forbidden (by unfold Word.forbidden; omega)]; rfl
  · rw [State.decodeLeadWord_special (by omega), show w = 0xFFF0#16 by bv_omega]; rfl
  · rw [State.decodeLeadWord_special (by omega), show w = 0xFFF1#16 by bv_omega]; rfl
  · rw [State.decodeLeadWord_special (by omega), show w = 0xFFF2#16 by bv_omega]; rfl
  · rw [State.decodeLeadWord_special (by omega), show w = 0xFFF3#16 by bv_omega]; rfl
  · rw [State.decodeLeadWord_special (by omega), show w = 0xFFF4#16 by bv_omega]; rfl
  iterate 3
    · rw [State.decodeLeadWord_forbidden (by unfold Word.forbidden; omega)]; rfl

/-- Settles O3: the command is the one CMD selects, and DECODE reads the lead word the row was decoded from. -/
theorem stepRunsDecodedInstruction : Obligations.StepRunsDecodedInstruction := by
  refine ⟨fun s v rest hp => step_of_cmd hp, fun s rest w hp hw => ?_⟩
  have hread : (s.setPending rest).readWord 0 = some w := hw
  calc step s = execDecode (s.setPending rest) := step_of_cmd hp
    _ = .next ((s.setPending rest).decodeLeadWord w) := execDecode_of_lead hread
    _ = exec (decode (.lead w)) (s.setPending rest) := (exec_decodeLead w _).symm

/-! ### What the rows leave unchanged -/

theorem State.SameOperands.memRead {s t : State} (h : s.SameOperands t) (a : Nat) : t.memRead a = s.memRead a := by
  rw [State.memRead, State.memRead, h.buf, h.bufEpoch]

theorem execDecode_frame (s : State) : ∃ t, execDecode s = .next t ∧ s.SameOperands t := by
  obtain ⟨v, n, _, _, h⟩ | ⟨c, k, _, h⟩ := execDecode_outcome s
  · exact ⟨_, h, s.deliver_same v n⟩
  · exact ⟨_, h, s.raise_same c k⟩

theorem execChunk_frame (c : BitVec 15) (s : State) : ∃ t, execChunk c s = .next t ∧ s.SameOperands t := by
  unfold execChunk
  split
  · exact ⟨_, rfl, s.acceptChunk_same c _⟩
  · exact ⟨_, rfl, s.decodeLeadWord_same _⟩

theorem execChunkIllegal_frame (w : Word) (s : State) :
    ∃ t, execChunkIllegal w s = .next t ∧ s.SameOperands t := by
  unfold execChunkIllegal
  split
  · exact ⟨_, rfl, s.raise_same _ _⟩
  · exact ⟨_, rfl, s.decodeLeadWord_same w⟩

/-- Every row but ENCODE answers a next state with the same operands, encode results, BUF and queue: a DS or SP row
delivers, a forbidden row raises, a GB or NI row reads a value (20_memory.md R52, 45_decoder_dispatch.md R217). -/
theorem exec_frame {i : Instr} (hi : i ≠ .encode) (s : State) : ∃ t, exec i s = .next t ∧ s.SameOperands t := by
  cases i with
  | encode => exact absurd rfl hi
  | decode => exact execDecode_frame s
  | gb L sg X => exact ⟨_, rfl, s.decodeMulti_same (.gb X) sg L⟩
  | ni sg L e5 => exact ⟨_, rfl, s.decodeMulti_same (.ni e5) sg L⟩
  | dsEM5 | dsEM4 | dsEM3 | dsEM2 | dsEM1 | dsEP0 | dsEP1 | dsEP2 | dsEP3 | dsEP4 | dsEP5 | dsEP6 | dsEP7 | dsEP8
  | spPzero | spNzero | spPinf | spNinf | spNan => exact ⟨_, rfl, s.deliver_same _ 1⟩
  | sur | rsvF900 | rsvFA00 | rsvFC00 | rsvFE00 | rsvFF00 | rsvFF80 | rsvFFC0 | rsvFFE0 | rsvFFF5 | rsvFFF6
  | rsvFFF8 => exact ⟨_, rfl, s.raise_same _ 0⟩
  | chunk c => exact execChunk_frame c s
  | chunkIllegal w => exact execChunkIllegal_frame w s

/-- Settles O43: a step of a row has one outcome, the one of the frame. -/
theorem decodingRowsFrame : Obligations.DecodingRowsFrame := by
  intro i s t hi ht
  obtain ⟨u, hu, hsame⟩ := exec_frame hi s
  cases hu.symm.trans ht
  exact ⟨hsame.encIn, hsame.encOut, hsame.encLen, hsame.bufLen, hsame.decOff, hsame.buf, hsame.bufEpoch,
    hsame.pending, hsame.memRead⟩

/-! ### The order of writes and commands -/

theorem State.setPending_of_pending {s : State} {q : List HostAction} (h : s.pending = q) : s.setPending q = s := by
  subst h; rfl

theorem State.setPending_withWrite (s : State) (h : HostWrite) (q : List HostAction) :
    (s.setPending q).withWrite h = (s.withWrite h).setPending q := by
  cases h <;> rfl

theorem State.hostRead_result_withWrite (s : State) (h : HostWrite) (r : ResultPort) :
    hostRead (.result r) (s.withWrite h) = hostRead (.result r) s := by
  cases r <;> simp [hostRead]

theorem State.acceptChunk_setPending (s : State) (c : BitVec 15) (p : PartialValue) (q : List HostAction) :
    (s.setPending q).acceptChunk c p = (s.acceptChunk c p).setPending q := by
  unfold State.acceptChunk
  dsimp only
  split <;> rfl

/-- The reading of a value meets no host action (20_memory.md R60). -/
theorem State.readChunks_setPending (q : List HostAction) : ∀ fuel (s : State),
    State.readChunks fuel (s.setPending q) = (State.readChunks fuel s).setPending q
  | 0, _ => rfl
  | fuel + 1, s => by
    cases hp : s.decoding with
    | none => rw [State.readChunks_none _ _ hp, State.readChunks_none _ (s.setPending q) hp]
    | some p =>
      have hread : (s.setPending q).readWord (p.taken.val + 1) = s.readWord (p.taken.val + 1) := rfl
      rw [State.readChunks_succ fuel s p hp, State.readChunks_succ fuel (s.setPending q) p hp, hread]
      cases s.readWord (p.taken.val + 1) with
      | none => rfl
      | some w =>
        dsimp only
        split
        · rw [State.acceptChunk_setPending, State.readChunks_setPending q fuel]
        · rfl

theorem State.decodeLeadWord_setPending (s : State) (w : Word) (q : List HostAction) :
    (s.setPending q).decodeLeadWord w = (s.decodeLeadWord w).setPending q := by
  obtain ⟨v, h⟩ | h | ⟨kind, sg, L, h⟩ := State.decodeLeadWord_cases w <;> rw [h, h]
  · rfl
  · rfl
  · exact State.readChunks_setPending q 4 (s.beginValue kind sg L)

/-- A command answers a next state, keeps the queue, and does the same whatever waits in the queue (20_memory.md R60). -/
theorem exec_command (c : BitVec 1) (s : State) :
    ∃ u, exec (decodeCmd c) s = .next u ∧ u.pending = s.pending ∧
      ∀ q, exec (decodeCmd c) (s.setPending q) = .next (u.setPending q) := by
  by_cases hc : c = 0#1
  · rw [decodeCmd, if_pos hc]
    exact ⟨_, exec_encode s, rfl, fun _ => rfl⟩
  · rw [decodeCmd, if_neg hc]
    cases hw : s.readWord 0 with
    | none => exact ⟨_, execDecode_of_missing hw, rfl, fun q => execDecode_of_missing (s := s.setPending q) hw⟩
    | some w =>
      refine ⟨_, execDecode_of_lead hw, (s.decodeLeadWord_same w).pending, fun q => ?_⟩
      rw [← State.decodeLeadWord_setPending]
      exact execDecode_of_lead (s := s.setPending q) hw

/-- Settles O8: a write is applied by its own step, before or after the command's, and the command keeps the queue. -/
theorem commandSeesEarlierWritesOnly : Obligations.CommandSeesEarlierWritesOnly := by
  refine ⟨fun s h q hw hp => ⟨?_, ?_⟩, fun s v rest t1 t2 hp ht1 ht2 => ?_, fun s c h rest hw hp => ?_⟩
  · rw [step_of_write_wf hp hw, State.setPending_withWrite]
  · rintro c rest rfl
    exact step_of_cmd rfl
  · cases (step_of_write_wf hp trivial).symm.trans ht1
    cases (step_of_cmd (v := 0#1) (rest := rest) rfl).symm.trans ht2
    exact State.encoding_setEncoding _ _ (encodeSequence_length v).2
  · obtain ⟨u, hu, hpending, hany⟩ := exec_command c (s.setPending rest)
    refine ⟨u, hu, ?_, ?_, u.hostRead_result_withWrite h⟩
    · rw [step_of_cmd hp]
      exact hany (.write h :: rest)
    · have hqueue : (u.setPending (.write h :: rest)).setPending rest = u := State.setPending_of_pending hpending
      rw [step_of_write_wf rfl hw, hqueue]

end Sys2Proof.Machine
end

section
/-! PROOFS. The statements of 30_encoding.md: the decoder and the encoder undo each other (R70 to R79), and what the macros
PUT and NEXT stand for (R86). An encoded instruction lies between the bounds of its row, so the decoder's tests for the
rows before it fail and its own holds; the other way, a word is put together again from the fields its row reads. -/

namespace Sys2Proof

/-! ### A word is put together from its fields -/

theorem gbWord_slices {w : Word} (h : w.toNat < 0x8000) : gbWord (slice 13 2 w) (slice 12 1 w) (slice 0 12 w) = w := by
  apply BitVec.eq_of_toNat_eq
  simp only [gbWord_toNat, slice_toNat]
  omega

theorem niWord_slices {w : Word} (h : 0xF800 ≤ w.toNat ∧ w.toNat ≤ 0xF8FF) :
    niWord (slice 7 1 w) (slice 5 2 w) (slice 0 5 w) = w := by
  apply BitVec.eq_of_toNat_eq
  simp only [niWord_toNat, slice_toNat]
  omega

theorem dsWord_slices {E4 : Nat} {w : Word} (h : w.toNat / 2 ^ 11 = 16 + E4) :
    dsWord E4 (slice 10 1 w) (slice 0 10 w) = w := by
  have hlt := w.isLt
  apply BitVec.eq_of_toNat_eq
  rw [dsWord_toNat _ _ _ (by omega), slice_toNat, slice_toNat]
  omega

theorem chunkWord_slice {w : Word} (h : w.toNat < 0x8000) : chunkWord (slice 0 15 w) = w := by
  apply BitVec.eq_of_toNat_eq
  simp only [chunkWord_toNat, slice_toNat]
  omega

/-- The fields of a DS row's word, its exponent code read off the encoder's arm (30_encoding.md R75). -/
theorem fields_of_lead_dsWord {E4 : Nat} {sg : BitVec 1} {M : BitVec 10} {w : Word}
    (he : CodeWord.lead (dsWord E4 sg M) = .lead w) (h : E4 < 16) :
    w.toNat = 0x8000 + E4 * 2 ^ 11 + sg.toNat * 2 ^ 10 + M.toNat ∧ slice 10 1 w = sg ∧ slice 0 10 w = M := by
  cases he
  obtain ⟨-, hsg, hM⟩ := slices_dsWord E4 sg M h
  exact ⟨dsWord_toNat E4 sg M h, hsg, hM⟩

/-! ### The row of an instruction's word -/

/-- The word of a well-formed instruction is in its row alone (30_encoding.md R71). -/
theorem decodeLead_encode {i : Instr} {w : Word} (hwf : i.wf = true) (he : encode i = .lead w) : decodeLead w = i := by
  cases i with
  | encode | decode | chunk | chunkIllegal => cases he
  | gb L sg X =>
    cases he
    obtain ⟨hL, hsg, hX⟩ := slices_gbWord L sg X
    have hrow : (gbWord L sg X).toNat < 0x8000 := by rw [gbWord_toNat]; omega
    rw [decodeLead, if_pos hrow, hL, hsg, hX]
  | ni sg L e5 =>
    cases he
    obtain ⟨hsg, hL, he5⟩ := slices_niWord sg L e5
    have hrow := niWord_toNat sg L e5
    simp (disch := omega) only [decodeLead, ↓if_neg, ↓if_pos, hsg, hL, he5]
  | sur | rsvF900 | rsvFA00 | rsvFC00 | rsvFE00 | rsvFF00 | rsvFF80 | rsvFFC0 | rsvFFE0 | rsvFFF6 | rsvFFF8 =>
    cases he
    have hrow := (Word.between_iff _ _ w).mp hwf
    simp (disch := omega) only [decodeLead, ↓if_neg, ↓if_pos]
  | spPzero | spNzero | spPinf | spNinf | spNan | rsvFFF5 => cases he; rfl
  | dsEM5 sg M | dsEM4 sg M | dsEM3 sg M | dsEM2 sg M | dsEM1 sg M | dsEP0 sg M | dsEP1 sg M | dsEP2 sg M | dsEP3 sg M
  | dsEP4 sg M | dsEP5 sg M | dsEP6 sg M | dsEP7 sg M | dsEP8 sg M =>
    obtain ⟨hrow, hsg, hM⟩ := fields_of_lead_dsWord he (by decide)
    simp (disch := omega) only [decodeLead, ↓if_neg, ↓if_pos, hsg, hM]

theorem decodeCmd_encode {i : Instr} {v : BitVec 1} (he : encode i = .cmd v) : decodeCmd v = i := by
  cases i with
  | encode | decode => cases he; rfl
  | _ => cases he

theorem decodeCont_encode {i : Instr} {w : Word} (hwf : i.wf = true) (he : encode i = .cont w) : decodeCont w = i := by
  cases i with
  | chunk c =>
    cases he
    have hrow : (chunkWord c).toNat < 0x8000 := by rw [chunkWord_toNat]; exact c.isLt
    rw [decodeCont, if_pos hrow, slice_chunkWord]
  | chunkIllegal =>
    cases he
    have hrow := (Word.between_iff _ _ w).mp hwf
    exact if_neg hrow.1.not_gt
  | _ => cases he

/-- Settles O12, by the position of the code word. -/
theorem decodeOfEncode : Obligations.DecodeOfEncode := by
  intro i hwf
  cases he : encode i with
  | cmd v => exact decodeCmd_encode he
  | lead w => exact decodeLead_encode hwf he
  | cont w => exact decodeCont_encode hwf he

/-- Settles O14: each of the words is the encoding of its instruction. -/
theorem sampleWordsDecode : Obligations.SampleWordsDecode :=
  ⟨decodeOfEncode .encode rfl, decodeOfEncode .decode rfl, decodeOfEncode (.gb 3#2 0#1 1025#12) rfl,
    decodeOfEncode (.dsEM4 0#1 360#10) rfl, decodeOfEncode (.dsEP8 1#1 1023#10) rfl,
    decodeOfEncode (.sur 0xD900#16) rfl, decodeOfEncode (.ni 1#1 3#2 2#5) rfl,
    decodeOfEncode (.rsvFFE0 0xFFEF#16) rfl, decodeOfEncode .spNan rfl, decodeOfEncode (.chunk 0x7FFF#15) rfl,
    decodeOfEncode (.chunkIllegal 0x8000#16) rfl⟩

/-! ### The instruction of a code word -/

/-- The code word `c` stands in the row of the instruction `i` and is its encoding (30_encoding.md R71, R74). -/
def CodeWord.InRow (c : CodeWord) (i : Instr) : Prop := encode i = c ∧ i.wf = true

/-- One test of the decoder. -/
theorem inRow_ite {p : Prop} [Decidable p] {c : CodeWord} {i j : Instr} (hi : p → c.InRow i) (hj : ¬ p → c.InRow j) :
    c.InRow (if p then i else j) :=
  iteInduction hi hj

/-- A DS row, by its exponent code (30_encoding.md R75). -/
theorem inRow_of_dsCode {E4 : Nat} {w : Word} {i : Instr}
    (he : encode i = .lead (dsWord E4 (slice 10 1 w) (slice 0 10 w))) (hwf : i.wf = true)
    (h : w.toNat / 2 ^ 11 = 16 + E4) : CodeWord.InRow (.lead w) i :=
  ⟨by rw [he, dsWord_slices h], hwf⟩

/-- A row of forbidden words, by its bounds (30_encoding.md R78, R79; 45_decoder_dispatch.md R215). -/
theorem inRow_of_between {c : CodeWord} {i : Instr} {w : Word} {lo hi : Nat} (he : encode i = c)
    (hwf : i.wf = w.between lo hi) (h : lo ≤ w.toNat ∧ w.toNat ≤ hi) : c.InRow i :=
  ⟨he, hwf.trans ((Word.between_iff lo hi w).mpr h)⟩

/-- The rows stand in the order of their ranges, as in `decodeLead`. -/
theorem inRow_decodeLead (w : Word) : CodeWord.InRow (.lead w) (decodeLead w) := by
  have hlt := w.isLt
  unfold decodeLead
  repeat' refine inRow_ite (fun _ => ?_) fun _ => ?_
  · exact ⟨congrArg CodeWord.lead (gbWord_slices (by omega)), rfl⟩
  iterate 11
    · exact inRow_of_dsCode rfl rfl (by omega)
  · exact inRow_of_between rfl rfl (by omega)
  iterate 3
    · exact inRow_of_dsCode rfl rfl (by omega)
  · exact ⟨congrArg CodeWord.lead (niWord_slices (by omega)), rfl⟩
  iterate 8
    · exact inRow_of_between rfl rfl (by omega)
  iterate 6
    · exact ⟨congrArg CodeWord.lead (by bv_omega), rfl⟩
  iterate 2
    · exact inRow_of_between rfl rfl (by omega)

theorem inRow_decodeCont (w : Word) : CodeWord.InRow (.cont w) (decodeCont w) := by
  refine inRow_ite (fun h => ?_) fun h => ?_
  · exact ⟨congrArg CodeWord.cont (chunkWord_slice h), rfl⟩
  · exact inRow_of_between rfl rfl (by omega)

theorem inRow_decodeCmd (v : BitVec 1) : CodeWord.InRow (.cmd v) (decodeCmd v) := by
  refine inRow_ite (fun h => ?_) fun h => ?_
  · exact ⟨congrArg CodeWord.cmd h.symm, rfl⟩
  · exact ⟨congrArg CodeWord.cmd (show 1#1 = v by bv_omega), rfl⟩

/-- Settles O13, by the position of the code word. -/
theorem encodeOfDecode : Obligations.EncodeOfDecode
  | .cmd v => inRow_decodeCmd v
  | .lead w => inRow_decodeLead w
  | .cont w => inRow_decodeCont w

end Sys2Proof

namespace Sys2Proof.Machine

/-! ### The macros PUT and NEXT -/

theorem step_of_put {s : State} {a : Nat} {rest : List HostAction} (hp : s.pending = .put a :: rest) :
    step s = .next (s.setPending (s.expandPut a ++ rest)) := by
  unfold step; rw [hp]

theorem step_of_next {s : State} {rest : List HostAction} (hp : s.pending = .next :: rest) :
    step s = .next (s.setPending (.write (.decOff s.nextOff) :: rest)) := by
  unfold step; rw [hp]

@[simp] theorem wbufs_length (a : Nat) (ws : List Word) : (wbufs a ws).length = ws.length := by
  induction ws generalizing a with
  | nil => rfl
  | cons w ws ih => exact congrArg Nat.succ (ih (a + 1))

/-- `WBUF a+k, w_k` (30_encoding.md R86). -/
theorem wbufs_getElem (a : Nat) (ws : List Word) (k : Nat) (h : k < (wbufs a ws).length) :
    (wbufs a ws)[k] = .write (.buf (a + k) (ws[k]'(wbufs_length a ws ▸ h))) := by
  induction ws generalizing a k with
  | nil => cases h
  | cons w ws ih =>
    cases k with
    | zero => rfl
    | succ k =>
      have hk := ih (a + 1) k (Nat.lt_of_succ_lt_succ h)
      rwa [Nat.add_right_comm] at hk

theorem State.encoding_length (s : State) (h : s.encLen.toNat ≤ 5) : s.encoding.length = s.encLen.toNat := by
  simp [State.encoding, h]

theorem State.encoding_getElem (s : State) (k : Fin 5) (h : k.val < s.encoding.length) :
    s.encoding[k.val] = s.encOut[k] := by
  simp [State.encoding]

theorem State.nextOff_toNat {s : State} (h : s.decOff.toNat + s.decCons.toNat < 2 ^ Config.offWidth) :
    s.nextOff.toNat = s.decOff.toNat + s.decCons.toNat := by
  rw [State.nextOff, dif_pos h, BitVec.toNat_ofNatLT]

/-- Where DEC_CONS is 0, NEXT's sum is DEC_OFF, which always fits. -/
theorem State.nextOff_of_decCons_zero {s : State} (h : s.decCons = 0#3) : s.nextOff = s.decOff := by
  have hsum : s.decOff.toNat + s.decCons.toNat = s.decOff.toNat := by rw [h]; rfl
  apply BitVec.eq_of_toNat_eq
  rw [State.nextOff_toNat (hsum.trans_lt s.decOff.isLt), hsum]

theorem decCons_zero_of_exec_decode {s t : State} (ht : exec .decode s = .next t) (hst : t.decStatus ≠ 0#2) :
    t.decCons = 0#3 := by
  rcases execDecode_outcome s with ⟨v, n, _, _, hv⟩ | ⟨c, k, _, hk⟩
  · cases hv.symm.trans ht
    exact absurd rfl hst
  · cases hk.symm.trans ht
    rfl

/-- Settles O7: PUT's writes are `wbufs` of the last encoding, NEXT's value is the sum, and a failed DECODE consumes no
word. -/
theorem putAndNextExpand : Obligations.PutAndNextExpand := by
  refine ⟨fun s rest a hp hlen => ⟨s.expandPut a, step_of_put hp, ?_, fun k hk => ?_⟩,
    fun s rest hp hfits => ⟨s.nextOff, step_of_next hp, State.nextOff_toNat hfits⟩,
    fun s t ht hst => State.nextOff_of_decCons_zero (decCons_zero_of_exec_decode ht hst)⟩
  · rw [State.expandPut, wbufs_length, s.encoding_length hlen]
  · have hk' : k.val < s.encoding.length := wbufs_length a s.encoding ▸ hk
    calc (s.expandPut a)[k.val] = .write (.buf (a + k.val) s.encoding[k.val]) := wbufs_getElem a _ _ hk
      _ = .write (.buf (a + k.val) s.encOut[k]) := by rw [s.encoding_getElem k hk']

end Sys2Proof.Machine
end

section
/-! PROOFS. The statements of 40_exponent_extractor.md. An operand of EXTRACT is normal, a subnormal with msb(F) = 51, or a
subnormal below that, whose p is the clamp's (R101, R102); `extraction_of_finite_nonzero` says once what EXTRACT gives in
each of the three cases, and the contract (R100), the shape of Y (R105) and the hand-off (R103, R104) are read off it. -/

namespace Sys2Proof.Machine

/-! ### The finite nonzero classes -/

theorem fracField_lt (b : Pattern) : fracField b < 2 ^ 52 := (slice 0 52 b).isLt

theorem expField_lt (b : Pattern) : expField b < 2 ^ 11 := (slice 52 11 b).isLt

theorem classify_eq_normal_iff (b : Pattern) : classify b = .normal ↔ 1 ≤ expField b ∧ expField b ≤ 2046 := by
  have := expField_lt b
  unfold classify
  split_ifs <;> simp <;> omega

theorem classify_eq_subnormal_iff (b : Pattern) : classify b = .subnormal ↔ expField b = 0 ∧ 0 < fracField b := by
  unfold classify
  split_ifs <;> simp <;> omega

/-! ### What EXTRACT computes -/

theorem extract_of_normal {b : Pattern} (h : expField b ≠ 0) :
    (extract b).1 = (expField b : Int) - 1023 ∧ (extract b).2.toNat = (2 ^ 52 + fracField b) * 2 ^ 7 := by
  have hF := fracField_lt b
  simp only [extract, if_pos h, BitVec.toNat_ofNat, true_and]
  omega

/-- The exponent of a subnormal: msb(F) = 51 is the one case the clamp leaves above -1024 (40_exponent_extractor.md R102). -/
theorem subnormal_exponent (F : Nat) (hF : F < 2 ^ 52) :
    max ((Nat.log2 F : Int) - 1074) (-1024) = if 2 ^ 51 ≤ F then -1023 else -1024 := by
  rcases Nat.eq_zero_or_pos F with rfl | hpos
  · decide
  · have hlt : Nat.log2 F < 52 := (Nat.log2_lt hpos.ne').mpr hF
    have htop : 51 ≤ Nat.log2 F ↔ 2 ^ 51 ≤ F := Nat.le_log2 hpos.ne'
    split_ifs <;> omega

theorem extract_of_subnormal_top {b : Pattern} (h : expField b = 0) (htop : 2 ^ 51 ≤ fracField b) :
    (extract b).1 = -1023 ∧ (extract b).2.toNat = fracField b * 2 ^ 8 := by
  have hF := fracField_lt b
  simp only [extract, h, ne_eq, not_true_eq_false, if_false, subnormal_exponent _ hF, if_pos htop, if_true,
    BitVec.toNat_ofNat, true_and]
  omega

theorem extract_of_subnormal_clamped {b : Pattern} (h : expField b = 0) (hlow : fracField b < 2 ^ 51) :
    (extract b).1 = -1024 ∧ (extract b).2.toNat = fracField b * 2 ^ 9 := by
  simp only [extract, h, ne_eq, not_true_eq_false, if_false, subnormal_exponent _ (fracField_lt b), if_neg hlow.not_ge,
    if_neg (show (-1024 : Int) ≠ -1023 by decide), BitVec.toNat_ofNat, true_and]
  omega

/-- What EXTRACT gives for a finite nonzero operand, case by case (40_exponent_extractor.md R101, R102). -/
inductive Extraction (b : Pattern) : Prop
  | normal (hclass : classify b = .normal) (hE : 1 ≤ expField b ∧ expField b ≤ 2046)
      (hp : (extract b).1 = (expField b : Int) - 1023) (hY : (extract b).2.toNat = (2 ^ 52 + fracField b) * 2 ^ 7)
  | subnormalTop (hclass : classify b = .subnormal) (hE : expField b = 0) (hF : 2 ^ 51 ≤ fracField b)
      (hp : (extract b).1 = -1023) (hY : (extract b).2.toNat = fracField b * 2 ^ 8)
  | subnormalClamped (hclass : classify b = .subnormal) (hE : expField b = 0)
      (hF : 0 < fracField b ∧ fracField b < 2 ^ 51)
      (hp : (extract b).1 = -1024) (hY : (extract b).2.toNat = fracField b * 2 ^ 9)

theorem extraction_of_finite_nonzero {b : Pattern} (h : classify b = .normal ∨ classify b = .subnormal) :
    Extraction b := by
  rcases h with hclass | hclass
  · have hE := (classify_eq_normal_iff b).mp hclass
    obtain ⟨hp, hY⟩ := extract_of_normal (b := b) (by omega)
    exact .normal hclass hE hp hY
  · obtain ⟨hE, hpos⟩ := (classify_eq_subnormal_iff b).mp hclass
    by_cases htop : 2 ^ 51 ≤ fracField b
    · obtain ⟨hp, hY⟩ := extract_of_subnormal_top hE htop
      exact .subnormalTop hclass hE htop hp hY
    · obtain ⟨hp, hY⟩ := extract_of_subnormal_clamped hE (not_le.mp htop)
      exact .subnormalClamped hclass hE ⟨hpos, not_le.mp htop⟩ hp hY

/-! ### The contract -/

/-- Bits shifted into a significand are taken off its exponent. -/
theorem mul_two_pow_mul_zpow (n j : Nat) (k e : Int) (he : e = k + j) :
    ((n * 2 ^ j : ℕ) : ℚ) * (2 : ℚ) ^ k = n * (2 : ℚ) ^ e := by
  rw [he, zpow_add₀ two_ne_zero, zpow_natCast]
  push_cast
  ring

theorem value_eq_extract {b : Pattern} (h : classify b = .normal ∨ classify b = .subnormal) :
    (value b).toRat = ((extract b).2.toNat : ℚ) * (2 : ℚ) ^ ((extract b).1 + 1 - 60) := by
  rw [value_toRat]
  cases extraction_of_finite_nonzero h with
  | normal _ hE hp hY => rw [if_neg (by omega), hp, hY]; exact (mul_two_pow_mul_zpow _ 7 _ _ (by omega)).symm
  | subnormalTop _ hE _ hp hY => rw [if_pos hE, hp, hY]; exact (mul_two_pow_mul_zpow _ 8 _ _ (by decide)).symm
  | subnormalClamped _ hE _ hp hY => rw [if_pos hE, hp, hY]; exact (mul_two_pow_mul_zpow _ 9 _ _ (by decide)).symm

/-- EXTRACT reads E and F alone. -/
theorem extract_congr {b c : Pattern} (hE : expField b = expField c) (hF : fracField b = fracField c) :
    extract b = extract c := by
  simp only [extract, hE, hF]

theorem expField_flip_sign (b : Pattern) : expField (b ^^^ 0x8000000000000000#64) = expField b := by
  have hmask : (0x8000000000000000#64).extractLsb' 52 11 = 0#11 := by decide
  rw [expField, slice, BitVec.extractLsb'_xor, hmask, BitVec.xor_zero, expField, slice]

theorem fracField_flip_sign (b : Pattern) : fracField (b ^^^ 0x8000000000000000#64) = fracField b := by
  have hmask : (0x8000000000000000#64).extractLsb' 0 52 = 0#52 := by decide
  rw [fracField, slice, BitVec.extractLsb'_xor, hmask, BitVec.xor_zero, fracField, slice]

/-- Settles O16: the value is `value_eq_extract`, the ranges are those of the three cases, and the sign is in neither field
EXTRACT reads. -/
theorem extractIsExact : Obligations.ExtractIsExact := by
  intro b h
  have hrange : -1024 ≤ (extract b).1 ∧ (extract b).1 ≤ 1023 ∧ 0 < (extract b).2.toNat := by
    cases extraction_of_finite_nonzero h <;> omega
  obtain ⟨hlow, hhigh, hpos⟩ := hrange
  exact ⟨hlow, hhigh, hpos, value_eq_extract h, extract_congr (expField_flip_sign b) (fracField_flip_sign b)⟩

/-! ### The shape of Y and the hand-off -/

theorem extract_normal_shape {b : Pattern} (h : classify b = .normal) :
    2 ^ 59 ≤ (extract b).2.toNat ∧ (extract b).2.toNat % 2 ^ 7 = 0 := by
  obtain ⟨-, hY⟩ := extract_of_normal (b := b) (by have := (classify_eq_normal_iff b).mp h; omega)
  omega

theorem extract_subnormal_shape {b : Pattern} (h : classify b = .subnormal) :
    ((extract b).1 = -1023 ∧ 2 ^ 59 ≤ (extract b).2.toNat ∧ (extract b).2.toNat % 2 ^ 8 = 0) ∨
    ((extract b).1 = -1024 ∧ 2 ^ 9 ≤ (extract b).2.toNat ∧ (extract b).2.toNat % 2 ^ 9 = 0) := by
  cases extraction_of_finite_nonzero (.inr h) with
  | normal hclass => exact absurd (h.symm.trans hclass) (by decide)
  | subnormalTop _ _ hF hp hY => exact .inl ⟨hp, by omega, by omega⟩
  | subnormalClamped _ _ hF hp hY => exact .inr ⟨hp, by omega, by omega⟩

/-- Settles O17: a subnormal has one of the two exponents, each with its own shape of Y. -/
theorem extractedFractionShape : Obligations.ExtractedFractionShape := by
  intro b
  refine ⟨extract_normal_shape, fun h hp => ?_, fun h hp => ?_, fun h => ?_⟩
  · exact ((extract_subnormal_shape h).resolve_right fun hclamped => by omega).2
  · exact ((extract_subnormal_shape h).resolve_left fun htop => by omega).2
  · exact (extract_subnormal_shape h).imp And.left And.left

/-- Settles O18: p is E - 1023 for a normal operand, so 1023 is reached at E = 2046 alone; the p of a subnormal is -1023 or
-1024 by msb(F). -/
theorem extractHandsOffTheTopBinade : Obligations.ExtractHandsOffTheTopBinade := by
  intro b h
  cases extraction_of_finite_nonzero h with
  | normal hclass hE hp _ =>
    exact ⟨by omega, by omega, fun _ => by omega, fun hsub => absurd (hclass.symm.trans hsub) (by decide)⟩
  | subnormalTop hclass hE hF hp _ =>
    exact ⟨by omega, by omega, fun hn => absurd (hclass.symm.trans hn) (by decide), fun _ => by rw [hp, if_pos hF]; rfl⟩
  | subnormalClamped hclass hE hF hp _ =>
    exact ⟨by omega, by omega, fun hn => absurd (hclass.symm.trans hn) (by decide),
      fun _ => by rw [hp, if_neg hF.2.not_ge]; rfl⟩

end Sys2Proof.Machine
end

section
/-! PROOFS. The statements of 41_mantissa_packer.md. PACK's digits are the four base-32768 digits of Y without the zeros at
the end (R121); UNPACK is the sum of the chunks at their weights (R124), which zeros at the end do not change (R126). The
continuation rows are rounds of that sum inside a DECODE. -/

namespace Sys2Proof.Machine

/-! ### The sum of the chunks -/

/-- What UNPACK still adds to an M60 whose bits from 60 - 15 taken down are zero (41_mantissa_packer.md R124). -/
theorem unpackFrom_toNat (cs : List (BitVec 15)) : ∀ (m60 : BitVec 60) (taken : Nat),
    m60.toNat % 2 ^ (60 - 15 * taken) = 0 → taken + cs.length ≤ 4 →
    (unpackFrom m60 taken cs).toNat = m60.toNat + chunkSumFrom (taken + 1) cs := by
  induction cs with
  | nil => intro m60 taken _ _; rfl
  | cons c cs ih =>
    intro m60 taken hlow hlen
    rw [List.length_cons] at hlen
    have hweight : 60 - 15 * (taken + 1) = 45 - 15 * taken := by omega
    have htaken : taken < 4 := by omega
    rw [unpackFrom, dif_pos htaken, ih _ _ (hweight ▸ unpackStep_low m60 ⟨taken, htaken⟩ c hlow) (by omega),
      unpackStep_toNat m60 ⟨taken, htaken⟩ c hlow, chunkSumFrom, hweight, Nat.add_assoc]

theorem unpack_toNat {cs : List (BitVec 15)} (h : cs.length ≤ 4) : (unpack cs).toNat = chunkSum cs := by
  rw [unpack, unpackFrom_toNat cs 0#60 0 (by decide) (by omega), chunkSum, BitVec.toNat_zero, Nat.zero_add]

/-- Settles O21. -/
theorem unpackIsTheSum : Obligations.UnpackIsTheSum :=
  fun _ _ hlen => unpack_toNat hlen

theorem chunkSumFrom_zeros (j : Nat) : ∀ k, chunkSumFrom k (List.replicate j 0#15) = 0 := by
  induction j with
  | zero => intro k; rfl
  | succ j ih => intro k; rw [List.replicate_succ, chunkSumFrom, ih, BitVec.toNat_zero, Nat.zero_mul]

theorem chunkSumFrom_append_zeros (j : Nat) (cs : List (BitVec 15)) : ∀ k,
    chunkSumFrom k (cs ++ List.replicate j 0#15) = chunkSumFrom k cs := by
  induction cs with
  | nil => exact chunkSumFrom_zeros j
  | cons c cs ih => intro k; rw [List.cons_append, chunkSumFrom, ih, chunkSumFrom]

/-! ### The digits -/

/-- `d_1 .. d_4`: all four base-32768 digits of Y (41_mantissa_packer.md R121). -/
def digits (Y : BitVec 60) : List (BitVec 15) := [slice 45 15 Y, slice 30 15 Y, slice 15 15 Y, slice 0 15 Y]

theorem digits_getElem_toNat (Y : BitVec 60) (k : Nat) (h : k < (digits Y).length) :
    (digits Y)[k].toNat = Y.toNat / 2 ^ (45 - 15 * k) % 2 ^ 15 := by
  match k, h with
  | 0, _ => exact slice_toNat 45 15 Y
  | 1, _ => exact slice_toNat 30 15 Y
  | 2, _ => exact slice_toNat 15 15 Y
  | 3, _ => exact slice_toNat 0 15 Y

theorem chunkSum_digits (Y : BitVec 60) : chunkSum (digits Y) = Y.toNat := by
  have hY := Y.isLt
  simp only [chunkSum, digits, chunkSumFrom, slice_toNat]
  omega

/-- "PACK drops only trailing zero digits" (41_mantissa_packer.md R126). -/
theorem pack_append_zeros (Y : BitVec 60) :
    pack Y ++ List.replicate (4 - (pack Y).length) 0#15 = digits Y := by
  unfold pack digits
  dsimp only
  by_cases h4 : slice 0 15 Y = 0#15
  · by_cases h3 : slice 15 15 Y = 0#15
    · by_cases h2 : slice 30 15 Y = 0#15
      · simp [h2, h3, h4]
      · simp [h2, h3, h4]
    · simp [h3, h4]
  · simp [h4]

theorem chunkSum_pack (Y : BitVec 60) : chunkSum (pack Y) = Y.toNat := by
  rw [← chunkSum_digits, ← pack_append_zeros, chunkSum, chunkSum, chunkSumFrom_append_zeros]

/-- Settles O20: both sides are the sum of Y's digits at their weights. -/
theorem unpackOfPack : Obligations.UnpackOfPack := by
  intro Y _
  apply BitVec.eq_of_toNat_eq
  rw [unpack_toNat (pack_length Y).2, chunkSum_pack]

theorem pack_getElem_toNat (Y : BitVec 60) (k : Nat) (h : k < (pack Y).length) :
    (pack Y)[k].toNat = Y.toNat / 2 ^ (45 - 15 * k) % 2 ^ 15 := by
  have hk : k < (digits Y).length := h.trans_le (pack_length Y).2
  rw [← digits_getElem_toNat Y k hk]
  simp only [← pack_append_zeros, List.getElem_append_left h]

theorem pack_dropped_zero (Y : BitVec 60) (k : Nat) (h : (pack Y).length ≤ k) (hk : k < (digits Y).length) :
    (digits Y)[k] = 0#15 := by
  simp only [← pack_append_zeros, List.getElem_append_right h, List.getElem_replicate]

/-- PACK stops at a nonzero digit; the first digit is one where the other three are zero, as Y is not
(41_mantissa_packer.md R122). -/
theorem pack_getLast_ne_zero {Y : BitVec 60} (hY : Y ≠ 0#60) : (pack Y).getLast? ≠ some 0#15 := by
  unfold pack
  dsimp only
  split_ifs with h4 h3 h2
  · simpa using h4
  · simpa using h3
  · simpa using h2
  · intro hlast
    have h1 : slice 45 15 Y = 0#15 := by simpa using hlast
    have hzeros : digits Y = List.replicate 4 0#15 := by
      rw [digits, h1, not_not.mp h2, not_not.mp h3, not_not.mp h4]; rfl
    apply hY
    apply BitVec.eq_of_toNat_eq
    rw [← chunkSum_digits, hzeros, chunkSum, chunkSumFrom_zeros, BitVec.toNat_zero]

/-- Settles O19. -/
theorem packGivesTheDigits : Obligations.PackGivesTheDigits := by
  intro Y hY
  obtain ⟨hpos, hle⟩ := pack_length Y
  refine ⟨hpos, hle, pack_getElem_toNat Y, fun k hk hk4 => ?_, fun k hk hlast hzero => ?_⟩
  · rw [← digits_getElem_toNat Y k hk4, pack_dropped_zero Y k hk hk4, BitVec.toNat_zero]
  · apply pack_getLast_ne_zero hY
    rw [List.getLast?_eq_getElem?, ← hlast, Nat.add_sub_cancel, List.getElem?_eq_getElem hk, hzero]

/-! ### The continuation rows -/

theorem exec_chunk_of_some {s : State} {p : PartialValue} (h : s.decoding = some p) (c : BitVec 15) :
    exec (.chunk c) s = .next (s.acceptChunk c p) := by
  rw [exec, execChunk, h]

theorem exec_chunk_of_none {s : State} (h : s.decoding = none) (c : BitVec 15) :
    exec (.chunk c) s = .next (s.decodeLeadWord (chunkWord c)) := by
  rw [exec, execChunk, h]

theorem exec_chunkIllegal_of_some {s : State} {p : PartialValue} (h : s.decoding = some p) (w : Word) :
    exec (.chunkIllegal w) s = .next (s.raise .illegalCodeUnit (p.taken.val + 1)) := by
  rw [exec, execChunkIllegal, h]

theorem exec_chunkIllegal_of_none {s : State} (h : s.decoding = none) (w : Word) :
    exec (.chunkIllegal w) s = .next (s.decodeLeadWord w) := by
  rw [exec, execChunkIllegal, h]

theorem State.deliver_eq_delivered (s : State) (v : Pattern) (n : Nat) : s.deliver v n = s.delivered v n := rfl

theorem State.raise_illegal_eq_failed (s : State) (k : Nat) : s.raise .illegalCodeUnit k = s.failed 1#2 k := rfl

/-- `unpackStep_toNat` with the weight of chunk k = taken + 1 as R124 writes it, 2^(60-15k). -/
theorem unpackStep_toNat_weight (m60 : BitVec 60) (taken : Fin 4) (c : BitVec 15)
    (h : m60.toNat % 2 ^ (60 - 15 * taken.val) = 0) :
    (unpackStep m60 taken c).toNat = m60.toNat + c.toNat * 2 ^ (60 - 15 * (taken.val + 1)) := by
  rw [unpackStep_toNat m60 taken c h, show 60 - 15 * (taken.val + 1) = 45 - 15 * taken.val by omega]

/-- Settles O37: inside a value CHUNK is one round of UNPACK and CHUNK_ILLEGAL the exception at its index; in the lead
position both are the row of their bits. -/
theorem continuationRows : Obligations.ContinuationRows := by
  refine ⟨fun c s p hp hlow => ?_, fun w s p hp => ?_, fun c s hnone => ?_, fun w s hnone => ?_⟩
  · have hsum := unpackStep_toNat_weight p.m60 p.taken c hlow
    refine ⟨fun hmore => ⟨_, hsum, ?_⟩, fun hlast => ⟨_, hsum, ?_⟩⟩
    · rw [exec_chunk_of_some hp, State.acceptChunk_more s c p hmore, PartialValue.extend]
    · rw [exec_chunk_of_some hp, State.acceptChunk_last s c p hlast.ge, State.deliver_eq_delivered, hlast]
  · rw [exec_chunkIllegal_of_some hp, State.raise_illegal_eq_failed]
  · exact (exec_chunk_of_none hnone c).trans (exec_decodeLead (chunkWord c) s).symm
  · exact (exec_chunkIllegal_of_none hnone w).trans (exec_decodeLead w s).symm

end Sys2Proof.Machine
end

section
/-! PROOFS. What the rounding of 00_scope.md R13 says of single values: a finite magnitude determines its pattern up to the
sign, so an exact value rounds to its own pattern; an integer below 2^53 is such a value; and any other magnitude in the
normal range is met to one part in 2^53. -/

namespace Sys2Proof.Machine

/-! ### A finite pattern from its value -/

theorem value_lt_binade_end (b : Pattern) : (value b).toRat < (2 : ℚ) ^ ((expField b : Int) - 1022) := by
  have hF := fracField_lt b
  rw [value_toRat]
  split
  · next hE =>
    rw [hE, two_zpow_eq_units (((0 : ℕ) : Int) - 1022) (-1022) 52 (by decide)]
    exact mul_lt_mul_of_pos_right (by exact_mod_cast hF) (by positivity)
  · rw [two_zpow_eq_units ((expField b : Int) - 1022) ((expField b : Int) - 1023) 53 (by omega),
      show (expField b : Int) - 1023 - 52 = expField b - 1075 by omega]
    exact mul_lt_mul_of_pos_right (by exact_mod_cast (by omega : 2 ^ 52 + fracField b < 2 ^ 53)) (by positivity)

theorem binade_start_le_value {b : Pattern} (hE : expField b ≠ 0) :
    (2 : ℚ) ^ ((expField b : Int) - 1023) ≤ (value b).toRat := by
  rw [value_toRat, if_neg hE, two_zpow_eq_units ((expField b : Int) - 1023) ((expField b : Int) - 1023) 52 (by omega),
    show (expField b : Int) - 1023 - 52 = expField b - 1075 by omega]
  exact mul_le_mul_of_nonneg_right (by exact_mod_cast Nat.le_add_right _ _) (by positivity)

theorem value_lt_of_expField_lt {b c : Pattern} (h : expField b < expField c) :
    (value b).toRat < (value c).toRat :=
  calc (value b).toRat < (2 : ℚ) ^ ((expField b : Int) - 1022) := value_lt_binade_end b
    _ ≤ (2 : ℚ) ^ ((expField c : Int) - 1023) := zpow_le_zpow_right₀ one_le_two (by omega)
    _ ≤ (value c).toRat := binade_start_le_value (by omega)

/-- Equal values have equal fields: in one binade the significands differ, and binades do not overlap. -/
theorem fields_eq_of_value_eq {b c : Pattern} (h : (value b).toRat = (value c).toRat) :
    expField b = expField c ∧ fracField b = fracField c := by
  have hE : expField b = expField c := by
    rcases lt_trichotomy (expField b) (expField c) with hlt | heq | hgt
    · exact absurd h (value_lt_of_expField_lt hlt).ne
    · exact heq
    · exact absurd h (value_lt_of_expField_lt hgt).ne'
  refine ⟨hE, ?_⟩
  rw [value_toRat, value_toRat, ← hE] at h
  split at h
  · exact_mod_cast mul_right_cancel₀ (zpow_ne_zero _ two_ne_zero) h
  · have hsig := mul_right_cancel₀ (zpow_ne_zero _ two_ne_zero) h
    exact Nat.add_left_cancel (by exact_mod_cast hsig)

theorem eq_of_signBit_of_value {b c : Pattern} (hsign : signBit b = signBit c)
    (hvalue : (value b).toRat = (value c).toRat) : b = c := by
  obtain ⟨hE, hF⟩ := fields_eq_of_value_eq hvalue
  rw [← assemble_fields b, ← assemble_fields c, hsign, hE, hF]

theorem value_lt_overflowBound {b : Pattern} (h : expField b ≠ 2047) : (value b).toRat < overflowBound := by
  have hE := expField_lt b
  have hF := fracField_lt b
  by_cases htop : expField b = 2046
  · rw [value_toRat, if_neg (by omega), htop, overflowBound_eq_units]
    refine mul_lt_mul_of_pos_right ?_ (zpow_pos two_pos _)
    have hsig : ((2 ^ 52 + fracField b : ℕ) : ℚ) ≤ (2 ^ 53 - 1 : ℕ) := Nat.cast_le.mpr (by omega)
    exact hsig.trans_lt (lt_add_of_pos_right _ one_half_pos)
  · calc (value b).toRat < (2 : ℚ) ^ ((expField b : Int) - 1022) := value_lt_binade_end b
      _ ≤ (2 : ℚ) ^ (1023 : Int) := zpow_le_zpow_right₀ one_le_two (by omega)
      _ < overflowBound := overflowBound_between.1

theorem lt_overflowBound {x : ℚ} (h : x < 2 ^ 53) : x < overflowBound := by
  refine (h.trans_le ?_).trans overflowBound_between.1
  rw [← zpow_natCast]
  exact zpow_le_zpow_right₀ one_le_two (by decide)

/-! ### The rounding below the bound -/

theorem signBit_roundToBinary64 (sg : BitVec 1) (q : Ratio) : signBit (roundToBinary64 sg q) = sg :=
  (roundingIsNearestEven sg q).1

section Below

variable {q : Ratio} (sg : BitVec 1) (h : q.toRat < overflowBound)
include h

theorem roundToBinary64_finite : expField (roundToBinary64 sg q) ≠ 2047 := ((roundingIsNearestEven sg q).2.1 h).1

/-- No finite magnitude is nearer (00_scope.md R13). -/
theorem roundToBinary64_nearest {b : Pattern} (hb : expField b ≠ 2047) :
    |(value (roundToBinary64 sg q)).toRat - q.toRat| ≤ |(value b).toRat - q.toRat| :=
  (((roundingIsNearestEven sg q).2.1 h).2 b hb).1

/-- The rounding is the whole number of grid units nearest to q. -/
theorem value_roundToBinary64 : (value (roundToBinary64 sg q)).toRat = q.units * (2 : ℚ) ^ (q.gridExp - 52) := by
  by_cases hzero : q.num = 0
  · have hunits : q.units = 0 :=
      Nat.le_zero.mp (q.inUnits.roundHalfEven_le 0 (by simp [Ratio.inUnits, q.toRat_of_num_eq_zero hzero]))
    rw [roundToBinary64_of_zero sg q hzero, (represents_zero sg).exact, hunits]
    simp
  · exact (roundToBinary64_represents sg q hzero fun ho => ((q.overflows_iff hzero).mp ho).not_gt h).exact

/-- A whole number of grid units is met exactly. -/
theorem value_roundToBinary64_of_grid (m : ℕ) (hm : q.toRat = m * (2 : ℚ) ^ (q.gridExp - 52)) :
    (value (roundToBinary64 sg q)).toRat = q.toRat := by
  have hnear := (q.units_nearest m).1
  rw [← value_roundToBinary64 sg h, ← hm, sub_self, abs_zero, abs_nonpos_iff] at hnear
  exact sub_eq_zero.mp hnear

/-- A magnitude in the normal range is met to one part in 2^53: half a unit of a grid of 2^52 units or more. -/
theorem roundToBinary64_error (hnormal : (2 : ℚ) ^ (-1022 : Int) ≤ q.toRat) :
    |(value (roundToBinary64 sg q)).toRat - q.toRat| ≤ q.toRat / 2 ^ 53 := by
  have hq : q.num ≠ 0 := fun hzero => by
    rw [q.toRat_of_num_eq_zero hzero] at hnormal
    exact absurd hnormal (zpow_pos two_pos _).not_ge
  have hlog : -1022 ≤ q.floorLog2 := by
    have := (zpow_lt_zpow_iff_right₀ (one_lt_two (α := ℚ))).mp (hnormal.trans_lt (q.floorLog2_spec hq).2)
    omega
  have hstart := q.binade_start_le hq hlog
  rw [two_zpow_eq_units q.gridExp q.gridExp 52 (by omega)] at hstart
  have hhalf : |(q.units : ℚ) - q.inUnits.toRat| ≤ 1 / 2 := q.inUnits.roundHalfEven_spec.1
  rw [value_roundToBinary64 sg h, q.units_dist]
  calc |(q.units : ℚ) - q.inUnits.toRat| * (2 : ℚ) ^ (q.gridExp - 52)
      ≤ 1 / 2 * (2 : ℚ) ^ (q.gridExp - 52) := mul_le_mul_of_nonneg_right hhalf (zpow_pos two_pos _).le
    _ ≤ q.toRat / 2 ^ 53 := by push_cast at hstart; linarith

end Below

/-! ### Exact values -/

/-- A finite pattern is the rounding of its own value with its own sign (00_scope.md R13). -/
theorem roundToBinary64_of_value {b : Pattern} {q : Ratio} (hb : expField b ≠ 2047) (hq : q.toRat = (value b).toRat) :
    roundToBinary64 (signBit b) q = b := by
  have hbound : q.toRat < overflowBound := hq ▸ value_lt_overflowBound hb
  have hnear := roundToBinary64_nearest (signBit b) hbound hb
  rw [← hq, sub_self, abs_zero, abs_nonpos_iff] at hnear
  exact eq_of_signBit_of_value (signBit_roundToBinary64 _ _) ((sub_eq_zero.mp hnear).trans hq)

/-- An integer below 2^53 has a finite value of its own. -/
theorem value_roundToBinary64_of_nat (sg : BitVec 1) {q : Ratio} {n : ℕ} (hq : q.toRat = n) (hn : n < 2 ^ 53) :
    (value (roundToBinary64 sg q)).toRat = n := by
  have hlt : q.toRat < (2 : ℚ) ^ (53 : Int) := by rw [hq]; exact_mod_cast hn
  by_cases hzero : q.num = 0
  · rw [roundToBinary64_of_zero sg q hzero, (represents_zero sg).exact, ← hq, q.toRat_of_num_eq_zero hzero]
    simp
  · have hlog : q.floorLog2 ≤ 52 := by
      have := (zpow_lt_zpow_iff_right₀ (one_lt_two (α := ℚ))).mp ((q.floorLog2_spec hzero).1.trans_lt hlt)
      omega
    have hk : q.gridExp ≤ 52 := max_le hlog (by decide)
    rw [← hq]
    refine value_roundToBinary64_of_grid sg (lt_overflowBound hlt) (n * 2 ^ (52 - q.gridExp).toNat) ?_
    rw [mul_two_pow_mul_zpow n _ _ 0 (by omega), zpow_zero, mul_one, hq]

end Sys2Proof.Machine
end

section
/-! PROOFS. The code units of a finite pattern decode to it (43_encoder_dispatch.md R180): a zero's special word, a DS word by
the verification of 42_decimal_short_float.md R145, and a GB or NI value because its chunks carry the value exactly, which
then rounds to the pattern. -/

namespace Sys2Proof.Machine

/-! ### A whole value is read -/

/-- Reading on where the rest of the chunks stands in BUF (45_decoder_dispatch.md R210). -/
theorem State.readChunks_of_offered (cs : List (BitVec 15)) : ∀ (fuel : Nat) (s : State) (p : PartialValue),
    s.decoding = some p → cs ≠ [] → p.taken.val + cs.length = p.len.toNat + 1 → cs.length ≤ fuel →
    (∀ j (h : j < cs.length), s.readWord (p.taken.val + 1 + j) = some (chunkWord cs[j])) →
    State.readChunks fuel s =
      s.deliver (multiValue p.kind p.sg (unpackFrom p.m60 p.taken.val cs)) (2 + p.len.toNat) := by
  induction cs with
  | nil => intro _ _ _ _ hne; exact absurd rfl hne
  | cons c cs ih =>
    intro fuel s p hp _ hlen hfuel hwords
    obtain ⟨fuel, rfl⟩ : ∃ n, fuel = n + 1 := Nat.exists_eq_succ_of_ne_zero (by rintro rfl; simp at hfuel)
    have hlead : s.readWord (p.taken.val + 1) = some (chunkWord c) := hwords 0 (Nat.zero_lt_succ _)
    have hchunk : (chunkWord c).toNat < 0x8000 := by rw [chunkWord_toNat]; exact c.isLt
    rw [List.length_cons] at hlen hfuel
    rw [unpackFrom, dif_pos p.taken.isLt]
    cases hcs : cs with
    | nil =>
      subst hcs
      have hlast : p.len.toNat = p.taken.val := by simpa using hlen.symm
      rw [State.readChunks_of_last fuel hp hlead hchunk hlast.le, slice_chunkWord, hlast, unpackFrom]
    | cons c' cs' =>
      have hmore : p.taken.val < p.len.toNat := by rw [hcs, List.length_cons] at hlen; omega
      have htaken := p.extend_taken c hmore
      rw [← hcs, State.readChunks_of_more fuel hp hlead hchunk hmore, slice_chunkWord,
        ih fuel _ (p.extend c) rfl (by simp [hcs]) (by rw [htaken]; simp only [PartialValue.extend]; omega) (by omega)
          fun j hj => ?_]
      · rw [htaken]; rfl
      · rw [htaken, show p.taken.val + 1 + 1 + j = p.taken.val + 1 + (j + 1) by omega]
        exact hwords (j + 1) (Nat.succ_lt_succ hj)

/-- A GB or NI value with its chunks readable (45_decoder_dispatch.md R213, 44_near_infinity.md R192). -/
theorem State.decodeMulti_of_offersChunks (s : State) (kind : MultiKind) (sg : BitVec 1) (L : BitVec 2)
    {cs : List (BitVec 15)} (hlen : cs.length = L.toNat + 1) (h : s.offersChunks cs) :
    s.decodeMulti kind sg L = s.deliver (multiValue kind sg (unpack cs)) (2 + L.toNat) := by
  have hL := L.isLt
  refine State.readChunks_of_offered cs 4 (s.beginValue kind sg L) _ rfl ?_ ?_ (by omega) fun j hj => ?_
  · rintro rfl; simp at hlen
  · simpa using hlen
  · rw [(s.beginValue_same kind sg L).readWord, Nat.add_comm]
    simpa using h j hj

theorem State.offersWords_cons {s : State} {lead : Word} {cs : List (BitVec 15)}
    (h : s.offersWords (lead :: cs.map chunkWord)) : s.readWord 0 = some lead ∧ s.offersChunks cs := by
  refine ⟨h 0 (Nat.zero_lt_succ _), fun j hj => ?_⟩
  rw [h (j + 1) (by simpa using hj), List.getElem_cons_succ, List.getElem_map]

/-! ### What ENCODE emits for a finite nonzero pattern -/

section FiniteNonzero

variable {b : Pattern} (hb : classify b = .normal ∨ classify b = .subnormal)
include hb

theorem encodeSequence_of_finite_nonzero : encodeSequence b = finiteSequence b := by
  rcases hb with h | h <;> rw [encodeSequence, h]

theorem encodeSequence_of_top_binade (hp : 1023 ≤ (extract b).1) :
    encodeSequence b = niEncode (signBit b) (extract b).1 (extract b).2 := by
  rw [encodeSequence_of_finite_nonzero hb]
  exact if_pos hp

theorem encodeSequence_of_eligible (hp : (extract b).1 < 1023) {w : Word} (hw : dsEncode b = some w) :
    encodeSequence b = [w] := by
  rw [encodeSequence_of_finite_nonzero hb, finiteSequence]
  simp only [if_neg hp.not_ge, hw]

theorem encodeSequence_of_general (hp : (extract b).1 < 1023) (hw : dsEncode b = none) :
    encodeSequence b = gbEncode (signBit b) (extract b).1 (extract b).2 := by
  rw [encodeSequence_of_finite_nonzero hb, finiteSequence]
  simp only [if_neg hp.not_ge, hw]

theorem expField_ne_of_finite_nonzero : expField b ≠ 2047 := by
  rw [classify_eq_normal_iff, classify_eq_subnormal_iff] at hb
  omega

/-- The chunks carry the value exactly, so it rounds to the pattern (43_encoder_dispatch.md R180). -/
theorem multiValue_of_pack (kind : MultiKind) (hscale : kind.scale = (extract b).1 + 1 - 60) :
    multiValue kind (signBit b) (unpack (pack (extract b).2)) = b := by
  refine roundToBinary64_of_value (expField_ne_of_finite_nonzero hb) ?_
  rw [Ratio.toRat_mulPow2, Ratio.toRat_ofNat, unpack_toNat (pack_length _).2, chunkSum_pack, hscale,
    value_eq_extract hb]

end FiniteNonzero

/-- The length code of the chunks of PACK (30_encoding.md R73, R76). -/
theorem lengthCode_toNat (Y : BitVec 60) : (BitVec.ofNat 2 ((pack Y).length - 1)).toNat + 1 = (pack Y).length := by
  obtain ⟨hpos, hle⟩ := pack_length Y
  rw [BitVec.toNat_ofNat]; omega

/-! ### The sequence decodes -/

section Decodes

variable {s : State} {b : Pattern}

theorem execDecode_of_dsWord {w : Word} (hw : Word.decimal w) (h : s.offersWords [w]) :
    execDecode s = .next (s.deliver (dsDecode w) 1) := by
  rw [execDecode_of_lead (h 0 Nat.one_pos), List.getElem_singleton, State.decodeLeadWord_decimal hw]

/-- A value of the chunks of b's Y, at the scale of b's exponent, is b (43_encoder_dispatch.md R176, R180). -/
theorem State.decodeMulti_of_pack (hb : classify b = .normal ∨ classify b = .subnormal) (kind : MultiKind)
    (hscale : kind.scale = (extract b).1 + 1 - 60) (h : s.offersChunks (pack (extract b).2)) :
    s.decodeMulti kind (signBit b) (BitVec.ofNat 2 ((pack (extract b).2).length - 1)) =
      s.deliver b (1 + (pack (extract b).2).length) := by
  have hlen := lengthCode_toNat (extract b).2
  rw [State.decodeMulti_of_offersChunks _ _ _ _ hlen.symm h, multiValue_of_pack hb kind hscale]
  congr 1
  omega

/-- The words of a GB value deliver it: X = p + 1024 (43_encoder_dispatch.md R176). -/
theorem execDecode_of_gbEncode (hb : classify b = .normal ∨ classify b = .subnormal) (hp : (extract b).1 < 1023)
    (h : s.offersWords (gbEncode (signBit b) (extract b).1 (extract b).2)) :
    execDecode s = .next (s.deliver b (1 + (pack (extract b).2).length)) := by
  obtain ⟨hlead, hchunks⟩ := State.offersWords_cons h
  obtain ⟨hL, hsg, hX⟩ := slices_gbWord (BitVec.ofNat 2 ((pack (extract b).2).length - 1)) (signBit b)
    (BitVec.ofNat 12 ((extract b).1 + 1024).toNat)
  have hscale : (MultiKind.gb (BitVec.ofNat 12 ((extract b).1 + 1024).toNat)).scale = (extract b).1 + 1 - 60 := by
    have hlow := (extractIsExact b hb).1
    rw [MultiKind.scale, BitVec.toNat_ofNat]; omega
  rw [execDecode_of_lead hlead, State.decodeLeadWord_gb (by rw [gbWord_toNat]; omega), hL, hsg, hX,
    State.decodeMulti_of_pack hb _ hscale hchunks]

/-- The words of an NI value deliver it: p = 1023, so e5 = 2 (44_near_infinity.md R190). -/
theorem execDecode_of_niEncode (hb : classify b = .normal ∨ classify b = .subnormal) (hp : 1023 ≤ (extract b).1)
    (h : s.offersWords (niEncode (signBit b) (extract b).1 (extract b).2)) :
    execDecode s = .next (s.deliver b (1 + (pack (extract b).2).length)) := by
  obtain ⟨hlead, hchunks⟩ := State.offersWords_cons h
  obtain ⟨hsg, hL, he5⟩ := slices_niWord (signBit b) (BitVec.ofNat 2 ((pack (extract b).2).length - 1))
    (BitVec.ofNat 5 ((extract b).1 - 1 - 1020).toNat)
  have hscale : (MultiKind.ni (BitVec.ofNat 5 ((extract b).1 - 1 - 1020).toNat)).scale = (extract b).1 + 1 - 60 := by
    have htop := (extractIsExact b hb).2.1
    rw [MultiKind.scale, BitVec.toNat_ofNat]; omega
  rw [execDecode_of_lead hlead, State.decodeLeadWord_ni (by rw [niWord_toNat]; omega), hsg, hL, he5,
    State.decodeMulti_of_pack hb _ hscale hchunks]

end Decodes

theorem zero_or_finite_nonzero {b : Pattern} (hb : expField b ≠ 2047) :
    classify b = .zero ∨ classify b = .normal ∨ classify b = .subnormal := by
  unfold classify
  rw [if_neg hb]
  split_ifs <;> simp

theorem eq_assemble_of_zero {b : Pattern} (hb : classify b = .zero) : b = assemble (signBit b) 0 0 := by
  unfold classify at hb
  split_ifs at hb with hE hF
  conv_lhs => rw [← assemble_fields b, hE, hF]

/-- The special word of a zero is that of its sign (46_special_values.md R240, R241). -/
theorem spDecode_spEncode_of_zero {b : Pattern} (hb : classify b = .zero) : spDecode (spEncode b) = b := by
  have hzero := eq_assemble_of_zero hb
  by_cases hsign : signBit b = 0#1
  · have hword : spEncode b = 0xFFF0#16 := by rw [spEncode, hb]; exact if_pos hsign
    rw [hword, hzero, hsign]; rfl
  · have hword : spEncode b = 0xFFF1#16 := by rw [spEncode, hb]; exact if_neg hsign
    rw [hword, hzero, show signBit b = 1#1 by bv_omega]; rfl

theorem execDecode_of_zero {s : State} {b : Pattern} (hb : classify b = .zero) (h : s.offersWords [spEncode b]) :
    execDecode s = .next (s.deliver b 1) := by
  rw [execDecode_of_lead (h 0 Nat.one_pos), List.getElem_singleton, State.decodeLeadWord_special (spEncode_between b),
    spDecode_spEncode_of_zero hb]


end Sys2Proof.Machine
end

section
/-! PROOFS. The statements of 42_decimal_short_float.md. The rounding of a grid value N * 10^e is off by at most one part in
2^53 and stays in its decade (`InWindow.scaled_error`, `InWindow.scaled_decade`), so it gives back e by R142's ilog10 and N
by R143's dy; that is R148's description of the eligible patterns. The round trip of a DS word's value, holes included (R151,
R152), is the one of any finite pattern, whose own DS word, if it has one, is verified by R145. -/

namespace Sys2Proof.Machine

/-! ### The DS rows and the values of DS words -/

/-- Settles O34: each row delivers R150's value for its own exponent. -/
theorem dsRowsDeliverTheirValue : Obligations.DsRowsDeliverTheirValue :=
  fun _ _ _ => ⟨rfl, rfl, rfl, rfl, rfl, rfl, rfl, rfl, rfl, rfl, rfl, rfl, rfl, rfl⟩

theorem toRat_decimal (N : ℕ) (e : Int) : ((Ratio.ofNat N).mulPow10 e).toRat = N * (10 : ℚ) ^ e := by
  rw [Ratio.toRat_mulPow10, Ratio.toRat_ofNat]

/-- "M·10^e ≤ 1023·10^8 < 2^53" (42_decimal_short_float.md R150). -/
theorem decimal_lt {N : ℕ} {e : Int} (hN : N ≤ 1023) (he : e ≤ 8) : (N : ℚ) * (10 : ℚ) ^ e < 2 ^ 53 :=
  calc (N : ℚ) * (10 : ℚ) ^ e ≤ (1023 : ℕ) * (10 : ℚ) ^ (8 : Int) :=
        mul_le_mul (Nat.cast_le.mpr hN) (zpow_le_zpow_right₀ (by norm_num) he) (by positivity) (by positivity)
    _ < 2 ^ 53 := by norm_num

theorem decimal_lt_overflowBound {N : ℕ} {e : Int} (hN : N ≤ 1023) (he : e ≤ 8) :
    ((Ratio.ofNat N).mulPow10 e).toRat < overflowBound := by
  rw [toRat_decimal]
  exact lt_overflowBound (decimal_lt hN he)

/-- For e ≥ 0 the value is an integer below 2^53, "so it is exact and no rounding happens" (42_decimal_short_float.md
R150). -/
theorem value_round_decimal_of_nonneg (sg : BitVec 1) {N : ℕ} {e : Int} (hN : N ≤ 1023) (he : e ≤ 8) (h0 : 0 ≤ e) :
    (value (roundToBinary64 sg ((Ratio.ofNat N).mulPow10 e))).toRat = N * (10 : ℚ) ^ e := by
  obtain ⟨n, rfl⟩ := Int.eq_ofNat_of_zero_le h0
  have hlt : N * 10 ^ n < 2 ^ 53 := by exact_mod_cast decimal_lt hN he
  have hexact : ((Ratio.ofNat N).mulPow10 n).toRat = (N * 10 ^ n : ℕ) := by rw [toRat_decimal]; push_cast; rfl
  rw [value_roundToBinary64_of_nat sg hexact hlt]
  push_cast; rfl

/-- The zero of each sign (42_decimal_short_float.md R151). -/
theorem dsValue_zero (e : Int) (sg : BitVec 1) :
    dsValue e sg 0#10 = if sg = 1#1 then 0x8000000000000000#64 else 0x0000000000000000#64 := by
  have hnum : ((Ratio.ofNat (0#10).toNat).mulPow10 e).num = 0 := (Ratio.mulPow10_num_eq_zero _ e).mpr rfl
  rw [dsValue, roundToBinary64_of_zero sg _ hnum]
  revert sg
  decide

/-- Settles O47: all the values lie below 2^53, and so far below the bound of R13. -/
theorem decimalValues : Obligations.DecimalValues := by
  intro e sg M _ he
  have hM : M.toNat ≤ 1023 := by have := M.isLt; omega
  have hbound := decimal_lt_overflowBound hM he
  exact ⟨roundToBinary64_finite sg hbound, signBit_roundToBinary64 sg _, value_round_decimal_of_nonneg sg hM he,
    fun hzero => hzero ▸ dsValue_zero e sg⟩

/-! ### The emitted DS word -/

/-- The words of eligible operands: a legal exponent code and three digits (42_decimal_short_float.md R147). -/
theorem dsEncode_word {b : Pattern} {w : Word} (h : dsEncode b = some w) :
    Word.decimal w ∧ w.toNat / 2 ^ 11 % 2 ^ 4 ≠ 11 ∧ w.toNat / 2 ^ 11 % 2 ^ 4 ≠ 15 ∧
      100 ≤ w.toNat % 2 ^ 10 ∧ w.toNat % 2 ^ 10 ≤ 999 := by
  obtain ⟨N, e, hN, hN', he, he', -, -, -, -, rfl⟩ := dsEncode_some b w h
  obtain ⟨hcode, hcode', -⟩ := dsCode_spec e he he'
  have hsg := (signBit b).isLt
  rw [Word.decimal, dsWord_toNat _ _ _ (by omega), BitVec.toNat_ofNat]
  omega

theorem extract_lt_of_not_top {b : Pattern} (hb : classify b = .normal ∨ classify b = .subnormal)
    (htop : expField b ≠ 2046) : (extract b).1 < 1023 :=
  not_le.mp fun hp => htop ((extractHandsOffTheTopBinade b hb).1.mp hp)

/-- Settles O29: an operand below the top binade has p < 1023, so its DS word is the whole sequence. -/
theorem encodeDecimal : Obligations.EncodeDecimal := by
  refine ⟨fun b w => dsEncode_word, fun s w hb htop hw => ?_⟩
  rw [exec_encode, encodeSequence_of_eligible hb (extract_lt_of_not_top hb htop) hw]
  rfl

theorem dsDecode_dsWord {E4 : Nat} (h : E4 < 16) (sg : BitVec 1) (M : BitVec 10) :
    dsDecode (dsWord E4 sg M) = dsValue (dsExponent E4) sg M := by
  obtain ⟨hE4, hsg, hM⟩ := slices_dsWord E4 sg M h
  rw [dsDecode, hE4, hsg, hM]

/-- R145's test against the magnitude of b is one against b with its sign. -/
theorem round_eq_magnitude_iff {q : Ratio} (hq : q.toRat < overflowBound) (b : Pattern) :
    roundToBinary64 0#1 q = assemble 0#1 (expField b) (fracField b) ↔ roundToBinary64 (signBit b) q = b := by
  obtain ⟨hsign, hE, hF⟩ := fields_assemble 0#1 (expField b) (fracField b) (expField_lt b) (fracField_lt b)
  have hmagnitude : (value (assemble 0#1 (expField b) (fracField b))).toRat = (value b).toRat := by
    rw [value_toRat, value_toRat, hE, hF]
  have hvalue : (value (roundToBinary64 0#1 q)).toRat = (value (roundToBinary64 (signBit b) q)).toRat := by
    rw [value_roundToBinary64 0#1 hq, value_roundToBinary64 (signBit b) hq]
  constructor
  · intro h
    exact eq_of_signBit_of_value (signBit_roundToBinary64 _ _) (by rw [← hvalue, h, hmagnitude])
  · intro h
    exact eq_of_signBit_of_value ((signBit_roundToBinary64 _ _).trans hsign.symm) (by rw [hvalue, h, hmagnitude])

/-- Settles O30: the word's fields are N and e, and R145 has compared their rounding with b. -/
theorem decimalWordDecodesToItsOperand : Obligations.DecimalWordDecodesToItsOperand := by
  intro b w h
  obtain ⟨N, e, -, hN, he, he', -, -, -, hround, rfl⟩ := dsEncode_some b w h
  obtain ⟨hcode, -, hexp⟩ := dsCode_spec e he he'
  have hM : (BitVec.ofNat 10 N).toNat = N := by rw [BitVec.toNat_ofNat]; omega
  rw [dsDecode_dsWord (by omega), hexp, dsValue, hM]
  exact (round_eq_magnitude_iff (decimal_lt_overflowBound (by omega) he') b).mp hround

/-! ### Every DS word re-encodes -/

/-- DECODE of the sequence of a finite pattern gives the pattern back (43_encoder_dispatch.md R180). -/
theorem execDecode_encodeSequence {s : State} {b : Pattern} (hb : expField b ≠ 2047)
    (h : s.offersWords (encodeSequence b)) :
    execDecode s = .next (s.deliver b (encodeSequence b).length) := by
  rcases zero_or_finite_nonzero hb with hzero | hclass
  · have hseq : encodeSequence b = [spEncode b] := by rw [encodeSequence, hzero]
    rw [hseq] at h ⊢
    exact execDecode_of_zero hzero h
  · by_cases hp : 1023 ≤ (extract b).1
    · rw [encodeSequence_of_top_binade hclass hp] at h ⊢
      rw [execDecode_of_niEncode hclass hp h, niEncode, List.length_cons, List.length_map, Nat.add_comm]
    · cases hw : dsEncode b with
      | some w =>
        rw [encodeSequence_of_eligible hclass (not_le.mp hp) hw] at h ⊢
        rw [execDecode_of_dsWord (dsEncode_word hw).1 h, decimalWordDecodesToItsOperand b w hw, List.length_singleton]
      | none =>
        rw [encodeSequence_of_general hclass (not_le.mp hp) hw] at h ⊢
        rw [execDecode_of_gbEncode hclass (not_le.mp hp) h, gbEncode, List.length_cons, List.length_map, Nat.add_comm]

theorem dsExponent_bounds {E4 : Nat} (h : E4 ≤ 14) : -5 ≤ dsExponent E4 ∧ dsExponent E4 ≤ 8 := by
  unfold dsExponent
  split <;> omega

/-- A DS word decodes to a finite pattern (42_decimal_short_float.md R152). -/
theorem dsDecode_finite {w : Word} (hw : Word.decimal w) : expField (dsDecode w) ≠ 2047 := by
  have hcode : (slice 11 4 w).toNat ≤ 14 := by
    unfold Word.decimal at hw
    rw [slice_toNat]
    omega
  obtain ⟨hlow, hhigh⟩ := dsExponent_bounds hcode
  exact (decimalValues _ _ _ hlow hhigh).1

/-- Settles O48: the value is finite, and a finite pattern's sequence decodes to it. -/
theorem decimalWordsReencode : Obligations.DecimalWordsReencode := by
  intro w s0 t0 s hw hin ht0 hoffers
  have hfinite := dsDecode_finite hw
  cases (exec_encode s0).symm.trans ht0
  rw [State.encoding_setEncoding _ _ (encodeSequence_length _).2, hin] at hoffers
  exact ⟨hfinite, _, execDecode_encodeSequence hfinite hoffers, rfl, rfl⟩

/-! ### The grid of the window -/

/-- N and e as DS_ENCODE emits them: three digits, and an exponent of the window (42_decimal_short_float.md R140, R141). -/
structure InWindow (N : ℕ) (e : Int) : Prop where
  digits_ge : 100 ≤ N
  digits_le : N ≤ 999
  exp_ge : -5 ≤ e
  exp_le : e ≤ 8

theorem InWindow.decimal_bounded {N : ℕ} {e : Int} (h : InWindow N e) :
    ((Ratio.ofNat N).mulPow10 e).toRat < overflowBound :=
  decimal_lt_overflowBound (h.digits_le.trans (by decide)) h.exp_le

theorem least_normal_le {x : ℚ} (h : 1 / 1000 ≤ x) : (2 : ℚ) ^ (-1022 : Int) ≤ x :=
  calc (2 : ℚ) ^ (-1022 : Int) ≤ (2 : ℚ) ^ (-10 : Int) := zpow_le_zpow_right₀ one_le_two (by decide)
    _ ≤ 1 / 1000 := by norm_num
    _ ≤ x := h

/-- The rounding of the grid value N * 10^e (42_decimal_short_float.md R148). -/
def gridPattern (sg : BitVec 1) (N : ℕ) (e : Int) : Pattern := roundToBinary64 sg ((Ratio.ofNat N).mulPow10 e)

section Grid

variable {N : ℕ} {e : Int} (h : InWindow N e) (sg : BitVec 1)
include h

theorem InWindow.error :
    |(value (gridPattern sg N e)).toRat - N * (10 : ℚ) ^ e| ≤ N * (10 : ℚ) ^ e / 2 ^ 53 := by
  have hlow : (1 / 1000 : ℚ) ≤ N * (10 : ℚ) ^ e :=
    calc (1 / 1000 : ℚ) = (100 : ℕ) * (10 : ℚ) ^ (-5 : Int) := by norm_num
      _ ≤ N * (10 : ℚ) ^ e := mul_le_mul (Nat.cast_le.mpr h.digits_ge)
          (zpow_le_zpow_right₀ (by norm_num) h.exp_ge) (by positivity) (by positivity)
  have herror := roundToBinary64_error sg h.decimal_bounded (least_normal_le (by rwa [toRat_decimal]))
  rwa [toRat_decimal] at herror

/-- The rounding, scaled back, is N but for one part in 2^53. -/
theorem InWindow.scaled_error : |(value (gridPattern sg N e)).toRat * (10 : ℚ) ^ (-e) - N| ≤ N / 2 ^ 53 := by
  have hpos : (0 : ℚ) < (10 : ℚ) ^ (-e) := by positivity
  have hback : (N : ℚ) * (10 : ℚ) ^ e * (10 : ℚ) ^ (-e) = N := by
    rw [zpow_neg, mul_inv_cancel_right₀ (by positivity)]
  calc |(value (gridPattern sg N e)).toRat * (10 : ℚ) ^ (-e) - N|
      = |(value (gridPattern sg N e)).toRat - N * (10 : ℚ) ^ e| * (10 : ℚ) ^ (-e) := by
        rw [← abs_of_pos hpos, ← abs_mul, abs_of_pos hpos, sub_mul, hback]
    _ ≤ N * (10 : ℚ) ^ e / 2 ^ 53 * (10 : ℚ) ^ (-e) := mul_le_mul_of_nonneg_right (h.error sg) hpos.le
    _ = N / 2 ^ 53 := by rw [div_mul_eq_mul_div, hback]

end Grid

/-- The decade 10^(e+2) .. 10^(e+3), scaled by 10^(-e). -/
theorem decade_iff (x : ℚ) (e : Int) :
    ((10 : ℚ) ^ (e + 2) ≤ x ∧ x < (10 : ℚ) ^ (e + 2 + 1)) ↔
      100 ≤ x * (10 : ℚ) ^ (-e) ∧ x * (10 : ℚ) ^ (-e) < 1000 := by
  have hpos : (0 : ℚ) < (10 : ℚ) ^ e := by positivity
  have hten : (10 : ℚ) ≠ 0 := by norm_num
  rw [zpow_neg, ← div_eq_mul_inv, le_div_iff₀ hpos, div_lt_iff₀ hpos, add_assoc, zpow_add₀ hten, zpow_add₀ hten,
    mul_comm (100 : ℚ), mul_comm (1000 : ℚ)]
  norm_num

theorem Ratio.ilog10_eq {q : Ratio} {k : Int} (hlow : (10 : ℚ) ^ k ≤ q.toRat) (hhigh : q.toRat < (10 : ℚ) ^ (k + 1)) :
    q.ilog10 = k := by
  have hten : (1 : ℚ) < 10 := by norm_num
  have hnum : q.num ≠ 0 := fun hzero =>
    (zpow_pos (zero_lt_one.trans hten) k).not_ge (q.toRat_of_num_eq_zero hzero ▸ hlow)
  obtain ⟨hlow', hhigh'⟩ := q.ilog10_spec hnum
  have h1 := (zpow_lt_zpow_iff_right₀ hten).mp (hlow.trans_lt hhigh')
  have h2 := (zpow_lt_zpow_iff_right₀ hten).mp (hlow'.trans_lt hhigh)
  omega

/-- An integral Ratio is its floor. -/
theorem Ratio.toRat_of_isInteger {q : Ratio} (h : q.isInteger = true) : q.toRat = q.floor := by
  have hdvd : q.den ∣ q.num := Nat.dvd_of_mod_eq_zero (by simpa [Ratio.isInteger] using h)
  rw [Ratio.toRat, Ratio.floor, Nat.cast_div hdvd (Nat.cast_ne_zero.mpr q.den_pos.ne')]

theorem eq_of_abs_sub_lt_one {m n : ℕ} (h : |(m : ℚ) - n| < 1) : m = n := by
  have hint : |(m : ℤ) - n| < 1 := by exact_mod_cast h
  have := Int.abs_lt_one_iff.mp hint
  omega

/-- The low ends of the 14 decades round into their decade: a power of ten that is no binary64 value rounds up. -/
theorem hundred_in_decade : ∀ (i : Fin 14) (sg : BitVec 1),
    (value (gridPattern sg 100 ((i : Int) - 5))).num ≠ 0 ∧
    (value (gridPattern sg 100 ((i : Int) - 5))).ilog10 = (i : Int) - 5 + 2 := by
  decide +kernel

theorem hundred_le_scaled (sg : BitVec 1) {e : Int} (hlow : -5 ≤ e) (hhigh : e ≤ 8) :
    100 ≤ (value (gridPattern sg 100 e)).toRat * (10 : ℚ) ^ (-e) := by
  obtain ⟨i, rfl⟩ : ∃ i : Fin 14, (i : Int) - 5 = e := ⟨⟨(e + 5).toNat, by omega⟩, by simp only; omega⟩
  obtain ⟨hnum, hlog⟩ := hundred_in_decade i sg
  have hspec := Ratio.ilog10_spec _ hnum
  rw [hlog] at hspec
  exact ((decade_iff _ _).mp hspec).1

section Decade

variable {N : ℕ} {e : Int} (h : InWindow N e) (sg : BitVec 1)
include h

/-- The rounding of N * 10^e stays in the decade 10^(e+2) .. 10^(e+3): only that of N = 100 could leave it
(42_decimal_short_float.md R148). -/
theorem InWindow.scaled_decade :
    100 ≤ (value (gridPattern sg N e)).toRat * (10 : ℚ) ^ (-e) ∧
    (value (gridPattern sg N e)).toRat * (10 : ℚ) ^ (-e) < 1000 := by
  obtain ⟨hlow, hhigh⟩ := abs_le.mp (h.scaled_error sg)
  have hN : (N : ℚ) ≤ 999 := by exact_mod_cast h.digits_le
  refine ⟨?_, by linarith⟩
  rcases h.digits_ge.eq_or_lt with rfl | hgt
  · exact hundred_le_scaled sg h.exp_ge h.exp_le
  · have hN' : (101 : ℚ) ≤ N := by exact_mod_cast hgt
    linarith

/-- R142's candidate exponent of the rounding is e. -/
theorem InWindow.ilog10 : (value (gridPattern sg N e)).ilog10 = e + 2 := by
  obtain ⟨hlow, hhigh⟩ := (decade_iff _ e).mpr (h.scaled_decade sg)
  exact Ratio.ilog10_eq hlow hhigh

/-- Where R143's dy is an integer, it is N: rounded twice, N is moved by less than 1. -/
theorem InWindow.scaled_mantissa (hint : (dsScaled (value (gridPattern sg N e)) e).isInteger = true) :
    (dsScaled (value (gridPattern sg N e)) e).floor = N := by
  have hfirst := h.scaled_error sg
  obtain ⟨hlow, hhigh⟩ := h.scaled_decade sg
  rw [← Ratio.toRat_mulPow10] at hfirst hlow hhigh
  have hsecond := roundToBinary64_error 0#1 (lt_overflowBound (hhigh.trans (by norm_num)))
    (least_normal_le (le_trans (by norm_num) hlow))
  have hN : (N : ℚ) ≤ 999 := by exact_mod_cast h.digits_le
  refine eq_of_abs_sub_lt_one ?_
  rw [← Ratio.toRat_of_isInteger hint]
  refine (abs_sub_le _ _ _).trans_lt (lt_of_le_of_lt (add_le_add hsecond hfirst) ?_)
  linarith

end Decade

/-- N and e are read back from their rounding (42_decimal_short_float.md R148). -/
theorem InWindow.unique {N N' : ℕ} {e e' : Int} (h : InWindow N e) (h' : InWindow N' e') {sg : BitVec 1}
    (heq : gridPattern sg N e = gridPattern sg N' e') : N = N' ∧ e = e' := by
  have hexp : e = e' := by
    have hlog := h.ilog10 sg
    rw [heq, h'.ilog10 sg] at hlog
    omega
  subst hexp
  have herror := h.scaled_error sg
  have herror' := h'.scaled_error sg
  rw [heq, abs_sub_comm] at herror
  have hN : (N : ℚ) ≤ 999 := by exact_mod_cast h.digits_le
  have hN' : (N' : ℚ) ≤ 999 := by exact_mod_cast h'.digits_le
  refine ⟨eq_of_abs_sub_lt_one ?_, rfl⟩
  refine (abs_sub_le _ _ _).trans_lt (lt_of_le_of_lt (add_le_add herror herror') ?_)
  linarith

/-! ### Eligibility -/

/-- An operand that passes R144 and R145 has its DS word (42_decimal_short_float.md R146). -/
theorem dsEncode_of_window {b : Pattern} {N : ℕ} {e : Int} (h : InWindow N e) (hexp : (value b).ilog10 - 2 = e)
    (hint : (dsScaled (value b) e).isInteger = true) (hfloor : (dsScaled (value b) e).floor = N)
    (hround : roundToBinary64 0#1 ((Ratio.ofNat N).mulPow10 e) = assemble 0#1 (expField b) (fracField b)) :
    dsEncode b = some (dsWord (dsCode e) (signBit b) (BitVec.ofNat 10 N)) := by
  obtain ⟨hN, hN', he, he'⟩ := h
  unfold dsEncode
  dsimp only
  rw [hexp, hfloor, if_neg (by omega), if_neg (by simp [hint, hN, hN']), if_neg (not_not.mpr hround)]

/-- The candidate exponent and an integral dy of the rounding of N * 10^e are e and N, so R145 compares b with that very
rounding, which it is. -/
theorem dsEncode_of_gridPattern {b : Pattern} {N : ℕ} {e : Int} (h : InWindow N e)
    (hgrid : gridPattern (signBit b) N e = b)
    (hint : (dsScaled (value b) ((value b).ilog10 - 2)).isInteger = true) :
    dsEncode b = some (dsWord (dsCode e) (signBit b) (BitVec.ofNat 10 N)) := by
  have hexp : (value b).ilog10 - 2 = e := by
    have hlog := h.ilog10 (signBit b)
    rw [hgrid] at hlog
    omega
  have hfloor : (dsScaled (value b) e).floor = N := by
    have hmantissa := h.scaled_mantissa (signBit b)
    rw [hgrid] at hmantissa
    exact hmantissa (hexp ▸ hint)
  exact dsEncode_of_window h hexp (hexp ▸ hint) hfloor ((round_eq_magnitude_iff h.decimal_bounded b).mpr hgrid)

/-- Settles O31: an eligible operand is the rounding R145 has compared it with; a rounding of the grid that passes R144 has a
DS word, and N and e are read back from it. -/
theorem decimalEligibility : Obligations.DecimalEligibility := by
  intro b _ _
  refine ⟨⟨fun hword => ?_, ?_⟩, fun N N' e e' hN hN' hM hM' he he' hf hf' heq heq' => ?_⟩
  · obtain ⟨w, hw⟩ := Option.ne_none_iff_exists'.mp hword
    obtain ⟨N, e, hN, hN', he, he', rfl, hint, rfl, hround, -⟩ := dsEncode_some b w hw
    have hb := (round_eq_magnitude_iff (decimal_lt_overflowBound (by omega) he') b).mp hround
    exact ⟨⟨_, _, hN, hN', he, he', hb.symm⟩, he, he', hint, hN, hN'⟩
  · rintro ⟨⟨N, e, hN, hN', he, he', hb⟩, -, -, hint, -, -⟩
    rw [dsEncode_of_gridPattern ⟨hN, hN', he, he'⟩ hb.symm hint]
    exact Option.some_ne_none _
  · exact InWindow.unique ⟨hN, hN', he, he'⟩ ⟨hM, hM', hf, hf'⟩ (heq.symm.trans heq')

end Sys2Proof.Machine
end

section
/-! PROOFS. The statements of 43_encoder_dispatch.md. What ENCODE leaves is the sequence of ENC_IN, word by word
(`exec_encode`, `State.setEncoding_encOut_get`), so each statement is one about `encodeSequence`: its words are legal
(R179), it is one special word or a lead word with the chunks of PACK (R172 to R176), and it decodes to its operand
(R180). -/

namespace Sys2Proof.Machine

/-! ### The registers ENCODE writes -/

/-- ENC_LEN holds the number of words (43_encoder_dispatch.md R177). -/
theorem State.setEncoding_encLen_toNat (s : State) {seq : List Word} (h : seq.length ≤ 5) :
    (s.setEncoding seq).encLen.toNat = seq.length := by
  rw [State.setEncoding_encLen, BitVec.toNat_ofNat]; omega

theorem exec_encode_of_one_word {s : State} {w : Word} (h : encodeSequence s.encIn = [w]) :
    exec .encode s = .next { s with encOut := #v[w, 0#16, 0#16, 0#16, 0#16], encLen := 1#3 } := by
  rw [exec_encode, h]; rfl

/-- A lead word and chunks, with the length code they have (43_encoder_dispatch.md R176, 44_near_infinity.md R190). -/
theorem exec_encode_of_chunks {s : State} {lead : Word} {Y : BitVec 60}
    (h : encodeSequence s.encIn = lead :: (pack Y).map chunkWord) :
    ∃ t, exec .encode s = .next t ∧ t.encoding = lead :: (pack Y).map chunkWord ∧
      t.encLen.toNat = (BitVec.ofNat 2 ((pack Y).length - 1)).toNat + 2 := by
  have hlen := (encodeSequence_length s.encIn).2
  refine ⟨_, exec_encode s, ?_, ?_⟩
  · rw [State.encoding_setEncoding _ _ hlen, h]
  · rw [State.setEncoding_encLen_toNat s hlen, h, List.length_cons, List.length_map]
    have hL := lengthCode_toNat Y
    omega

/-! ### The ranges of the emitted words -/

/-- The words ENCODE may emit: GB lead words and chunks, DS words of three digits, NI lead words, special words
(43_encoder_dispatch.md R179). -/
def Word.Emittable (w : Word) : Prop :=
  w.toNat < 0x8000 ∨ (Word.decimal w ∧ 100 ≤ w.toNat % 2 ^ 10 ∧ w.toNat % 2 ^ 10 ≤ 999) ∨
    (0xF800 ≤ w.toNat ∧ w.toNat ≤ 0xF8FF) ∨ (0xFFF0 ≤ w.toNat ∧ w.toNat ≤ 0xFFF4)

theorem gbWord_emittable (L : BitVec 2) (sg : BitVec 1) (X : BitVec 12) : Word.Emittable (gbWord L sg X) :=
  .inl (by rw [gbWord_toNat]; omega)

theorem chunkWord_emittable (c : BitVec 15) : Word.Emittable (chunkWord c) :=
  .inl (by rw [chunkWord_toNat]; exact c.isLt)

theorem dsEncode_emittable {b : Pattern} {w : Word} (h : dsEncode b = some w) : Word.Emittable w := by
  obtain ⟨hdecimal, -, -, hM, hM'⟩ := dsEncode_word h
  exact .inr (.inl ⟨hdecimal, hM, hM'⟩)

theorem niWord_emittable (sg : BitVec 1) (L : BitVec 2) (e5 : BitVec 5) : Word.Emittable (niWord sg L e5) :=
  .inr (.inr (.inl (by rw [niWord_toNat]; omega)))

theorem spEncode_emittable (b : Pattern) : Word.Emittable (spEncode b) :=
  .inr (.inr (.inr (spEncode_between b)))

theorem leadAndChunks_emittable {lead : Word} (cs : List (BitVec 15)) (h : Word.Emittable lead) :
    ∀ w ∈ lead :: cs.map chunkWord, Word.Emittable w :=
  List.forall_mem_cons.mpr ⟨h, List.forall_mem_map.mpr fun c _ => chunkWord_emittable c⟩

theorem encodeSequence_emittable (b : Pattern) : ∀ w ∈ encodeSequence b, Word.Emittable w := by
  rcases encodeSequence_cases b with h | ⟨w, hw, h⟩ | ⟨_, h⟩ | ⟨_, _, h⟩ <;> rw [h]
  · exact List.forall_mem_singleton.mpr (spEncode_emittable b)
  · exact List.forall_mem_singleton.mpr (dsEncode_emittable hw)
  · exact leadAndChunks_emittable _ (niWord_emittable _ _ _)
  · exact leadAndChunks_emittable _ (gbWord_emittable _ _ _)

/-- Settles O22: a register below ENC_LEN holds a word of the sequence, one beyond it holds zero. -/
theorem encodeEmitsLegalWords : Obligations.EncodeEmitsLegalWords := by
  intro s
  obtain ⟨hpos, hle⟩ := encodeSequence_length s.encIn
  have hnum := State.setEncoding_encLen_toNat s hle
  refine ⟨_, exec_encode s, hnum ▸ hpos, hnum ▸ hle, fun k hk => ?_, fun k hk => ?_⟩
  · rw [hnum] at hk
    have hmem := List.getElem_mem hk
    rw [State.setEncoding_encOut_get, List.getD_eq_getElem _ _ hk]
    exact ⟨encodeSequence_emittable _ _ hmem, encodeSequence_not_forbidden _ _ hmem⟩
  · rw [hnum] at hk
    rw [State.setEncoding_encOut_get, List.getD_eq_default _ _ hk]

/-! ### Infinities and NaNs -/

theorem classify_eq_inf_iff (b : Pattern) : classify b = .inf ↔ expField b = 2047 ∧ fracField b = 0 := by
  unfold classify
  split_ifs <;> simp_all

theorem classify_eq_nan_iff (b : Pattern) : classify b = .nan ↔ expField b = 2047 ∧ fracField b ≠ 0 := by
  unfold classify
  split_ifs <;> simp_all

theorem inf_or_nan {b : Pattern} (hb : expField b = 2047) : classify b = .inf ∨ classify b = .nan := by
  rw [classify_eq_inf_iff, classify_eq_nan_iff]
  exact (em (fracField b = 0)).imp (⟨hb, ·⟩) (⟨hb, ·⟩)

theorem encodeSequence_of_inf_or_nan {b : Pattern} (hb : classify b = .inf ∨ classify b = .nan) :
    encodeSequence b = [spEncode b] := by
  rcases hb with h | h <;> rw [encodeSequence, h]

/-- One NaN word, whatever the sign and the payload (43_encoder_dispatch.md R172). -/
theorem spEncode_of_nan {b : Pattern} (hb : classify b = .nan) : spEncode b = 0xFFF4#16 := by
  rw [spEncode, hb]

/-- The special word of an infinity is that of its sign (46_special_values.md R240, R241). -/
theorem spDecode_spEncode_of_inf {b : Pattern} (hb : classify b = .inf) : spDecode (spEncode b) = b := by
  obtain ⟨hE, hF⟩ := (classify_eq_inf_iff b).mp hb
  have hfields := assemble_fields b
  rw [hE, hF] at hfields
  by_cases hsign : signBit b = 0#1
  · have hword : spEncode b = 0xFFF2#16 := by rw [spEncode, hb]; exact if_pos hsign
    rw [hword, ← hfields, hsign]; rfl
  · have hword : spEncode b = 0xFFF3#16 := by rw [spEncode, hb]; exact if_neg hsign
    rw [hword, ← hfields, show signBit b = 1#1 by bv_omega]; rfl

/-- Settles O24: the zeros and infinities are four patterns, and a NaN is known by its fields. -/
theorem encodeSpecialValues : Obligations.EncodeSpecialValues := by
  intro s
  refine ⟨fun h => ?_, fun h => ?_, fun h => ?_, fun h => ?_, fun hE hF => ?_⟩
  · exact exec_encode_of_one_word (h ▸ rfl)
  · exact exec_encode_of_one_word (h ▸ rfl)
  · exact exec_encode_of_one_word (h ▸ rfl)
  · exact exec_encode_of_one_word (h ▸ rfl)
  · have hnan := (classify_eq_nan_iff s.encIn).mpr ⟨hE, hF⟩
    exact exec_encode_of_one_word (by rw [encodeSequence_of_inf_or_nan (.inr hnan), spEncode_of_nan hnan])

/-! ### General binary and near infinity -/

/-- The chunks at their weights, scaled to the exponent EXTRACT gives, are the value (43_encoder_dispatch.md R176). -/
theorem value_eq_chunkSum {b : Pattern} (hb : classify b = .normal ∨ classify b = .subnormal) {k : Int}
    (hk : k = (extract b).1 + 1 - 60) :
    (value b).toRat = (chunkSum (pack (extract b).2) : ℚ) * (2 : ℚ) ^ k := by
  rw [hk, chunkSum_pack, value_eq_extract hb]

/-- Settles O25: below the top binade p is in -1024 .. 1022, so X = p + 1024 fits its field. -/
theorem encodeGeneralBinary : Obligations.EncodeGeneralBinary := by
  intro s hb htop hw
  have hlow := (extractIsExact s.encIn hb).1
  have hhigh := extract_lt_of_not_top hb htop
  have hX : ((BitVec.ofNat 12 ((extract s.encIn).1 + 1024).toNat).toNat : Int) = (extract s.encIn).1 + 1024 := by
    rw [BitVec.toNat_ofNat]; omega
  obtain ⟨t, ht, hwords, hlen⟩ := exec_encode_of_chunks (encodeSequence_of_general hb hhigh hw)
  exact ⟨t, _, _, ht, hwords, (lengthCode_toNat _).symm, hX, by omega, hlen, value_eq_chunkSum hb (by omega)⟩

/-- Settles O26: the top binade has p = 1023, so e5 = (p - 1) - 1020 is 2. -/
theorem encodeNearInfinity : Obligations.EncodeNearInfinity := by
  intro s htop
  have hb : classify s.encIn = .normal ∨ classify s.encIn = .subnormal :=
    .inl ((classify_eq_normal_iff s.encIn).mpr (by omega))
  obtain ⟨hiff, htopExp, -, -⟩ := extractHandsOffTheTopBinade s.encIn hb
  have hge := hiff.mpr htop
  have hp := htopExp hge
  have hseq := encodeSequence_of_top_binade hb hge
  rw [niEncode, hp] at hseq
  obtain ⟨t, ht, hwords, hlen⟩ := exec_encode_of_chunks hseq
  exact ⟨t, _, ht, hwords, (lengthCode_toNat _).symm, hlen, value_eq_chunkSum hb (by rw [hp]; rfl)⟩

/-! ### The round trip -/

/-- What DECODE gives for the sequence of b (43_encoder_dispatch.md R180). -/
def decodedOperand (b : Pattern) : Pattern := if classify b = .nan then Config.decodeNanBits else b

theorem decodedOperand_of_not_nan {b : Pattern} (hb : classify b ≠ .nan) : decodedOperand b = b := if_neg hb

theorem spDecode_spEncode_of_inf_or_nan {b : Pattern} (hb : classify b = .inf ∨ classify b = .nan) :
    spDecode (spEncode b) = decodedOperand b := by
  rcases hb with hinf | hnan
  · rw [spDecode_spEncode_of_inf hinf, decodedOperand_of_not_nan (by rw [hinf]; decide)]
  · rw [spEncode_of_nan hnan, decodedOperand, if_pos hnan]; rfl

/-- DECODE of the sequence of any pattern: a special word for the infinities and NaNs, and the finite patterns'
`execDecode_encodeSequence`. -/
theorem execDecode_of_encodeSequence {s : State} {b : Pattern} (h : s.offersWords (encodeSequence b)) :
    execDecode s = .next (s.deliver (decodedOperand b) (encodeSequence b).length) := by
  by_cases hE : expField b = 2047
  · have hclass := inf_or_nan hE
    rw [encodeSequence_of_inf_or_nan hclass] at h ⊢
    rw [execDecode_of_lead (h 0 Nat.one_pos), List.getElem_singleton,
      State.decodeLeadWord_special (spEncode_between b), spDecode_spEncode_of_inf_or_nan hclass, List.length_singleton]
  · have hnan : classify b ≠ .nan := fun hb => hE ((classify_eq_nan_iff b).mp hb).1
    rw [execDecode_encodeSequence hE h, decodedOperand_of_not_nan hnan]

/-- Settles O50: ENC_OUT[0..ENC_LEN-1] is the sequence, and DEC_CONS and ENC_LEN are both its length. -/
theorem roundTrip : Obligations.RoundTrip := by
  intro s0 t0 s ht0 hoffers
  cases (exec_encode s0).symm.trans ht0
  rw [State.encoding_setEncoding _ _ (encodeSequence_length _).2] at hoffers
  exact ⟨_, execDecode_of_encodeSequence hoffers, rfl, rfl, rfl⟩

/-! ### Every instruction answers -/

/-- Settles O11: ENCODE never fails, and every other row's outcome is that of its frame. -/
theorem everyInstructionAnswersNext : Obligations.EveryInstructionAnswersNext := by
  intro i s
  by_cases hi : i = .encode
  · exact ⟨_, hi ▸ exec_encode s⟩
  · obtain ⟨t, ht, -⟩ := exec_frame hi s
    exact ⟨t, ht⟩

end Sys2Proof.Machine
end

section
/-! PROOFS. The statements of 44_near_infinity.md. A top-binade operand has p = 1023 and a Y of 2^59 or more, so its words
are an NI lead word with e5 = 2 and a first chunk whose top digit bit is set (R190, R191); below the top binade p + 1024 is
at most 2046 (R194). On the decoder's side an NI or GB value is the sum of its chunks, scaled and rounded once (R192), and the
rounding of R13 says where that is an infinity, a finite value or a zero (R193). -/

namespace Sys2Proof.Machine

/-! ### The words of the top binade -/

theorem State.setEncoding_encOut_zero (s : State) (seq : List Word) :
    (s.setEncoding seq).encOut[0] = seq.getD 0 0#16 := rfl

theorem State.setEncoding_encOut_one (s : State) (seq : List Word) :
    (s.setEncoding seq).encOut[1] = seq.getD 1 0#16 := rfl

section TopBinade

variable {b : Pattern} (htop : expField b = 2046)
include htop

theorem classify_of_top_binade : classify b = .normal := (classify_eq_normal_iff b).mpr (by omega)

/-- The top binade has p = 1023, so e5 = (p - 1) - 1020 is 2 (44_near_infinity.md R190). -/
theorem encodeSequence_eq_niWord_chunks :
    encodeSequence b = niWord (signBit b) (BitVec.ofNat 2 ((pack (extract b).2).length - 1)) 2#5 ::
      (pack (extract b).2).map chunkWord := by
  have hp : (extract b).1 = 1023 := by
    rw [(extract_of_normal (by omega)).1, htop]; rfl
  rw [encodeSequence_of_top_binade (.inl (classify_of_top_binade htop)) hp.ge, niEncode, hp]
  rfl

/-- The lead word, its length code one less than the number of chunks (44_near_infinity.md R191). -/
theorem encOut_lead_of_top_binade (s : State) :
    ((s.setEncoding (encodeSequence b)).encOut[0]).toNat =
      0xF800 + (signBit b).toNat * 0x80 + ((pack (extract b).2).length - 1) * 0x20 + 2 := by
  have hL := lengthCode_toNat (extract b).2
  rw [State.setEncoding_encOut_zero, encodeSequence_eq_niWord_chunks htop, List.getD_cons_zero, niWord_toNat,
    show (2#5).toNat = 2 from rfl]
  omega

/-- The first chunk is Y's top digit (41_mantissa_packer.md R121). -/
theorem encOut_first_chunk_of_top_binade (s : State) :
    ((s.setEncoding (encodeSequence b)).encOut[1]).toNat = (extract b).2.toNat / 2 ^ 45 % 2 ^ 15 := by
  have hpos : 0 < (pack (extract b).2).length := (pack_length _).1
  rw [State.setEncoding_encOut_one, encodeSequence_eq_niWord_chunks htop, List.getD_cons_succ,
    List.getD_eq_getElem _ _ (by simpa using hpos), List.getElem_map, chunkWord_toNat, pack_getElem_toNat]

end TopBinade

/-- A top-binade operand the last set bit of whose significand lies in chunk L + 1. -/
def topBinadeOperand (sg : BitVec 1) (L : Fin 4) : Pattern := assemble sg 2046 (#v[0, 2 ^ 23, 2 ^ 8, 1].get L)

theorem topBinadeOperand_spec : ∀ (sg : BitVec 1) (L : Fin 4),
    expField (topBinadeOperand sg L) = 2046 ∧ signBit (topBinadeOperand sg L) = sg ∧
      (pack (extract (topBinadeOperand sg L)).2).length = L.val + 1 := by decide

/-- Settles O27: the leading bit of a normal significand is the top bit of the first chunk, and each length code has an
operand of either sign. -/
theorem nearInfinityLeadWords : Obligations.NearInfinityLeadWords := by
  refine ⟨fun s t htop ht => ?_, fun sg L hL => ?_⟩
  · cases (exec_encode s).symm.trans ht
    have hlen := (pack_length (extract s.encIn).2).2
    have hY := (extract_normal_shape (classify_of_top_binade htop)).1
    have hY' := (extract s.encIn).2.isLt
    have hchunk := encOut_first_chunk_of_top_binade htop s
    exact ⟨⟨_, by omega, encOut_lead_of_top_binade htop s⟩, by omega, by omega⟩
  · obtain ⟨htop, hsign, hlen⟩ := topBinadeOperand_spec sg ⟨L, Nat.lt_succ_of_le hL⟩
    have hlead := encOut_lead_of_top_binade htop (State.reset.setEncIn (topBinadeOperand sg ⟨L, Nat.lt_succ_of_le hL⟩))
    rw [hsign, hlen, Nat.add_sub_cancel] at hlead
    exact ⟨State.reset.setEncIn _, _, htop, hsign, exec_encode _, hlead⟩

/-! ### The GB lead words -/

theorem Word.le_toNat_of_decimal {w : Word} (h : Word.decimal w) : 0x8000 ≤ w.toNat := by
  unfold Word.decimal at h; omega

/-- The one lead word below 0x8000 is GB's, with X = p + 1024 and p at most 1022 (43_encoder_dispatch.md R176). -/
theorem lead_exponent_le (b : Pattern) (hlead : ((encodeSequence b).getD 0 0#16).toNat < 0x8000) :
    ((encodeSequence b).getD 0 0#16).toNat % 2 ^ 12 ≤ 2046 := by
  rcases encodeSequence_cases b with h | ⟨w, hw, h⟩ | ⟨_, h⟩ | ⟨hp, _, h⟩ <;> rw [h] at hlead ⊢
  · exact absurd ((show 0x8000 ≤ 0xFFF0 by decide).trans (spEncode_between b).1) hlead.not_ge
  · exact absurd (Word.le_toNat_of_decimal (dsEncode_word hw).1) hlead.not_ge
  · rw [niEncode, List.getD_cons_zero, niWord_toNat] at hlead; omega
  · have hX : (BitVec.ofNat 12 ((extract b).1 + 1024).toNat).toNat ≤ 2046 := by rw [BitVec.toNat_ofNat]; omega
    rw [gbEncode, List.getD_cons_zero, gbWord_toNat]
    omega

/-- Settles O28: both forms scale M60 by 2^964. -/
theorem noGeneralBinaryLeadAbove2046 : Obligations.NoGeneralBinaryLeadAbove2046 := by
  refine ⟨fun s t ht => ?_, fun sg m60 => ?_⟩
  · cases (exec_encode s).symm.trans ht
    exact lead_exponent_le s.encIn
  · have hscale : (MultiKind.gb 2047#12).scale = (MultiKind.ni 2#5).scale := rfl
    rw [multiValue, multiValue, hscale]

/-! ### The values of the multi-word forms -/

/-- A GB or NI value with its chunks readable: the sum of R124, scaled and rounded once (45_decoder_dispatch.md R213,
44_near_infinity.md R192). -/
theorem State.decodeMulti_eq_delivered (s : State) (kind : MultiKind) (sg : BitVec 1) (L : BitVec 2)
    {cs : List (BitVec 15)} (hlen : cs.length = L.toNat + 1) (h : s.offersChunks cs) :
    s.decodeMulti kind sg L =
      s.delivered (roundToBinary64 sg ((Ratio.ofNat (chunkSum cs)).mulPow2 kind.scale)) (2 + L.toNat) := by
  have hL := L.isLt
  rw [State.decodeMulti_of_offersChunks s kind sg L hlen h, State.deliver_eq_delivered, multiValue,
    unpack_toNat (by omega)]

theorem exec_ni (sg : BitVec 1) (L : BitVec 2) (e5 : BitVec 5) (s : State) :
    exec (.ni sg L e5) s = .next (s.decodeMulti (.ni e5) sg L) := rfl

/-- Settles O33. -/
theorem niDeliversItsValue : Obligations.NiDeliversItsValue := by
  intro sg L e5 s cs hlen h
  rw [exec_ni, State.decodeMulti_eq_delivered s _ sg L hlen h, MultiKind.scale]

theorem toRat_scaled (m : ℕ) (k : Int) : ((Ratio.ofNat m).mulPow2 k).toRat = m * (2 : ℚ) ^ k := by
  rw [Ratio.toRat_mulPow2, Ratio.toRat_ofNat]

/-- The zero of each sign (00_scope.md R12). -/
theorem assemble_zero : ∀ sg : BitVec 1,
    assemble sg 0 0 = if sg = 1#1 then 0x8000000000000000#64 else 0x0000000000000000#64 := by decide

/-- The infinity of each sign (00_scope.md R12). -/
theorem assemble_inf : ∀ sg : BitVec 1,
    assemble sg 2047 0 = if sg = 1#1 then 0xFFF0000000000000#64 else 0x7FF0000000000000#64 := by decide

/-- "Overflow to infinity" (00_scope.md R13). -/
theorem roundToBinary64_of_overflowBound_le (sg : BitVec 1) {q : Ratio} (h : overflowBound ≤ q.toRat) :
    roundToBinary64 sg q = assemble sg 2047 0 := by
  have hnum : q.num ≠ 0 := fun hzero => by
    rw [q.toRat_of_num_eq_zero hzero] at h
    exact h.not_gt ((zpow_pos two_pos _).trans overflowBound_between.1)
  exact roundToBinary64_of_overflows sg q hnum ((q.overflows_iff hnum).mpr h)

/-- Settles O46: the bound is the rounding's, and M60 = 0 is the exact zero. -/
theorem multiWordValueRange : Obligations.MultiWordValueRange := by
  intro kind sg m
  have hvalue := toRat_scaled m.toNat kind.scale
  refine ⟨fun hover => ?_, fun hbelow => ?_, fun hzero => ?_⟩
  · rw [multiValue, roundToBinary64_of_overflowBound_le sg (hvalue ▸ hover), assemble_inf]
  · exact roundToBinary64_finite sg (hvalue ▸ hbelow)
  · have hnum : ((Ratio.ofNat m.toNat).mulPow2 kind.scale).num = 0 :=
      (Ratio.mulPow2_num_eq_zero _ _).mpr (by rw [hzero]; rfl)
    rw [multiValue, roundToBinary64_of_zero sg _ hnum, assemble_zero]

end Sys2Proof.Machine
end

section
/-! PROOFS. The statements of 45_decoder_dispatch.md. A lead word alone says how many words its value has (R211, R216), so
everything a DECODE does is decided by the first word that fails its check (`execDecode_of_failing_chunk`, R303) or, where
none fails, by the words of the value (`Reads`): it delivers their value in every state that offers them and stops at the
first one that is missing. Where the value ends, the next one begins (R218). -/

namespace Sys2Proof.Machine

/-! ### One value after another -/

theorem State.offersWords_append {s : State} {ws vs : List Word} (h : s.offersWords (ws ++ vs)) :
    s.offersWords ws ∧ ∀ j (hj : j < vs.length), s.readWord (ws.length + j) = some vs[j] := by
  refine ⟨fun j hj => ?_, fun j hj => ?_⟩
  · rw [h j (by rw [List.length_append]; omega), List.getElem_append_left hj]
  · rw [h (ws.length + j) (by rw [List.length_append]; omega), List.getElem_append_right (Nat.le_add_right _ _)]
    simp only [Nat.add_sub_cancel_left]

/-- After NEXT's advance word j of the value is word j past the words consumed (30_encoding.md R86). -/
theorem State.readWord_setDecOff_nextOff {s : State} (h : s.decOff.toNat + s.decCons.toNat < 2 ^ Config.offWidth)
    (j : Nat) : (s.setDecOff s.nextOff).readWord j = s.readWord (s.decCons.toNat + j) := by
  have hsum : (s.setDecOff s.nextOff).decOff.toNat + j = s.decOff.toNat + (s.decCons.toNat + j) := by
    rw [State.setDecOff_decOff, State.nextOff_toNat h, Nat.add_assoc]
  rw [State.readWord, hsum]
  rfl

/-- A readable word's address is below BUF_LEN, and so fits DEC_OFF (20_memory.md R59). -/
theorem State.address_lt_of_readWord {s : State} {k : Nat} {w : Word} (h : s.readWord k = some w) :
    s.decOff.toNat + k < 2 ^ Config.offWidth :=
  ((s.readWord_eq_some k w).mp h).1.trans s.bufLen.isLt

/-- A value was read off the words `ws`, and `vs` stand behind them: NEXT moves DEC_OFF to `vs`. -/
theorem State.offersWords_next {s : State} {ws vs : List Word} (h : s.offersWords (ws ++ vs)) (hws : ws.length ≤ 5)
    (hvs : 1 ≤ vs.length) (v : Pattern) :
    ((s.deliver v ws.length).setDecOff (s.deliver v ws.length).nextOff).offersWords vs := by
  obtain ⟨-, hrest⟩ := State.offersWords_append h
  have hcons : (s.deliver v ws.length).decCons.toNat = ws.length := by
    rw [State.deliver_decCons, BitVec.toNat_ofNat]; omega
  have hfits := State.address_lt_of_readWord (hrest 0 hvs)
  intro j hj
  rw [State.readWord_setDecOff_nextOff (by rw [hcons]; exact hfits), hcons, (s.deliver_same v ws.length).readWord]
  exact hrest j hj

/-- Settles O51: each DECODE gives the value of its sequence, and DEC_CONS is the length of the first. -/
theorem backToBackDecoding : Obligations.BackToBackDecoding := by
  intro a ta b tb s hta htb hoffers
  cases (exec_encode a).symm.trans hta
  cases (exec_encode b).symm.trans htb
  have hlen := encodeSequence_length a.encIn
  have hlen' := encodeSequence_length b.encIn
  rw [State.encoding_setEncoding _ _ hlen.2, State.encoding_setEncoding _ _ hlen'.2] at hoffers
  have hfirst := execDecode_of_encodeSequence (State.offersWords_append hoffers).1
  have hsecond := execDecode_of_encodeSequence (State.offersWords_next hoffers hlen.2 hlen'.1 (decodedOperand a.encIn))
  exact ⟨_, _, hfirst, rfl, rfl, rfl, hsecond, rfl, rfl, rfl⟩

/-! ### The row of the lead word -/

/-- Settles O4: DECODE's dispatch and the decoder of rows take the same branch on every lead word. -/
theorem decodeRunsTheLeadWordsRow : Obligations.DecodeRunsTheLeadWordsRow := by
  intro s w hw
  calc exec .decode s = .next (s.decodeLeadWord w) := execDecode_of_lead hw
    _ = exec (decode (.lead w)) s := (exec_decodeLead w s).symm

theorem exec_gb (L : BitVec 2) (sg : BitVec 1) (X : BitVec 12) (s : State) :
    exec (.gb L sg X) s = .next (s.decodeMulti (.gb X) sg L) := rfl

/-- Settles O32: the row reads a whole value, scaled by X - 1083. -/
theorem gbDeliversItsValue : Obligations.GbDeliversItsValue := by
  intro L sg X s cs hlen h
  rw [exec_gb, State.decodeMulti_eq_delivered s _ sg L hlen h, MultiKind.scale]

/-! ### How many chunks a lead word asks for -/

theorem Word.chunkCount_of_gb {w : Word} (h : w.toNat < 0x8000) :
    Word.chunkCount w = some ((slice 13 2 w).toNat + 1) := by
  rw [Word.chunkCount, if_pos h, slice_toNat]; rfl

theorem Word.chunkCount_of_ni {w : Word} (h : 0xF800 ≤ w.toNat ∧ w.toNat ≤ 0xF8FF) :
    Word.chunkCount w = some ((slice 5 2 w).toNat + 1) := by
  rw [Word.chunkCount, if_neg (by omega), if_pos h, slice_toNat]; rfl

theorem Word.multi_of_chunkCount {w : Word} {n : Nat} (h : Word.chunkCount w = some n) :
    w.toNat < 0x8000 ∨ 0xF800 ≤ w.toNat ∧ w.toNat ≤ 0xF8FF := by
  unfold Word.chunkCount at h
  split_ifs at h with hgb hni
  · exact .inl hgb
  · exact .inr hni

/-- A word that asks for no chunk is forbidden, or a whole value (30_encoding.md R71). -/
theorem Word.single_of_chunkCount {w : Word} (h : Word.chunkCount w = none) :
    Word.forbidden w ∨ Word.decimal w ∨ 0xFFF0 ≤ w.toNat ∧ w.toNat ≤ 0xFFF4 := by
  unfold Word.chunkCount at h
  split_ifs at h
  unfold Word.forbidden Word.decimal
  omega

/-- A lead word that asks for n chunks begins a value with the length code n - 1 (45_decoder_dispatch.md R212). -/
theorem State.decodeLeadWord_of_chunkCount {w : Word} {n : Nat} (h : Word.chunkCount w = some n) :
    ∃ kind sg, ∃ L : BitVec 2, n = L.toNat + 1 ∧ ∀ s : State, s.decodeLeadWord w = s.decodeMulti kind sg L := by
  rcases Word.multi_of_chunkCount h with hgb | hni
  · rw [Word.chunkCount_of_gb hgb] at h
    exact ⟨_, _, _, (Option.some.inj h).symm, State.decodeLeadWord_gb hgb⟩
  · rw [Word.chunkCount_of_ni hni] at h
    exact ⟨_, _, _, (Option.some.inj h).symm, State.decodeLeadWord_ni hni⟩

theorem State.decodeLeadWord_of_single {w : Word} (h : Word.decimal w ∨ 0xFFF0 ≤ w.toNat ∧ w.toNat ≤ 0xFFF4) :
    ∃ v, ∀ s : State, s.decodeLeadWord w = s.deliver v 1 := by
  rcases h with hds | hsp
  · exact ⟨_, State.decodeLeadWord_decimal hds⟩
  · exact ⟨_, State.decodeLeadWord_special hsp⟩

/-! ### The value of the words -/

theorem slice_one (lo : Nat) (w : Word) : slice lo 1 w = BitVec.ofNat 1 (w.toNat / 2 ^ lo % 2) := by
  apply BitVec.eq_of_toNat_eq
  rw [slice_toNat, BitVec.toNat_ofNat, Nat.pow_one, Nat.mod_mod]

theorem slice_low (len : Nat) (w : Word) : (slice 0 len w).toNat = w.toNat % 2 ^ len := by
  rw [slice_toNat, Nat.pow_zero, Nat.div_one]

/-- A DS word's value, its fields read off its number (30_encoding.md R75, 42_decimal_short_float.md R150). -/
theorem dsDecode_eq_round (w : Word) :
    dsDecode w = roundToBinary64 (BitVec.ofNat 1 (w.toNat / 2 ^ 10 % 2))
      ((Ratio.ofNat (w.toNat % 2 ^ 10)).mulPow10 (dsExponent (w.toNat / 2 ^ 11 % 2 ^ 4))) := by
  rw [dsDecode, dsValue, slice_one, slice_low, slice_toNat]

section Lead

variable {s : State} {w : Word} (hw : s.readWord 0 = some w)
include hw

theorem execDecode_of_special (h : 0xFFF0 ≤ w.toNat ∧ w.toNat ≤ 0xFFF4) :
    execDecode s = .next (s.delivered (spDecode w) 1) := by
  rw [execDecode_of_lead hw, State.decodeLeadWord_special h, State.deliver_eq_delivered]

theorem execDecode_of_gb {cs : List (BitVec 15)} (h : w.toNat < 0x8000) (hn : Word.chunkCount w = some cs.length)
    (hcs : s.offersChunks cs) :
    execDecode s = .next (s.delivered (roundToBinary64 (BitVec.ofNat 1 (w.toNat / 2 ^ 12 % 2))
      ((Ratio.ofNat (chunkSum cs)).mulPow2 ((w.toNat % 2 ^ 12 : Nat) - 1083 : Int))) (1 + cs.length)) := by
  have hlen := Option.some.inj (hn.symm.trans (Word.chunkCount_of_gb h))
  rw [execDecode_of_lead hw, State.decodeLeadWord_gb h, State.decodeMulti_eq_delivered s _ _ _ hlen hcs, slice_one,
    MultiKind.scale, slice_low, hlen, Nat.add_comm _ 1, ← Nat.add_assoc]

theorem execDecode_of_ni {cs : List (BitVec 15)} (h : 0xF800 ≤ w.toNat ∧ w.toNat ≤ 0xF8FF)
    (hn : Word.chunkCount w = some cs.length) (hcs : s.offersChunks cs) :
    execDecode s = .next (s.delivered (roundToBinary64 (BitVec.ofNat 1 (w.toNat / 2 ^ 7 % 2))
      ((Ratio.ofNat (chunkSum cs)).mulPow2 ((w.toNat % 2 ^ 5 : Nat) + 962 : Int))) (1 + cs.length)) := by
  have hlen := Option.some.inj (hn.symm.trans (Word.chunkCount_of_ni h))
  rw [execDecode_of_lead hw, State.decodeLeadWord_ni h, State.decodeMulti_eq_delivered s _ _ _ hlen hcs, slice_one,
    MultiKind.scale, slice_low, hlen, Nat.add_comm _ 1, ← Nat.add_assoc]

end Lead

/-- Settles O38, by the families of lead words: the dispatch reads the row off the word's number, and the chunks of a GB or
NI word are as many as its length code says. -/
theorem decodeDeliversItsValue : Obligations.DecodeDeliversItsValue := by
  intro s w hw
  refine ⟨fun hds => ?_, ?_, ?_, ?_, ?_, ?_, fun hgb cs hn hcs => execDecode_of_gb hw hgb hn hcs,
    fun hlo hhi cs hn hcs => execDecode_of_ni hw ⟨hlo, hhi⟩ hn hcs⟩
  · rw [exec_decode, execDecode_of_lead hw, State.decodeLeadWord_decimal hds, State.deliver_eq_delivered,
      dsDecode_eq_round]
  all_goals rintro rfl; exact execDecode_of_special hw (by decide)

/-! ### The first failing word -/

/-- Word j is there and is a chunk (45_decoder_dispatch.md R214, R215). -/
def State.AcceptsChunk (s : State) (j : Nat) : Prop := ∃ v, s.readWord j = some v ∧ v.toNat < 0x8000

/-- Word k fails its check as a continuation word: it is missing, or has bit 15 set (60_exceptions.md R300, R301). -/
inductive State.ChunkFails (s : State) (k : Nat) : Cause → Prop where
  | missing (h : s.readWord k = none) : s.ChunkFails k .truncated
  | illegal (v : Word) (h : s.readWord k = some v) (hv : 0x8000 ≤ v.toNat) : s.ChunkFails k .illegalCodeUnit

theorem State.acceptsChunk_or_fails (s : State) (k : Nat) : s.AcceptsChunk k ∨ ∃ c, s.ChunkFails k c := by
  cases h : s.readWord k with
  | none => exact .inr ⟨_, .missing h⟩
  | some v =>
    rcases lt_or_ge v.toNat 0x8000 with hv | hv
    · exact .inl ⟨v, h, hv⟩
    · exact .inr ⟨_, .illegal v h hv⟩

theorem State.ChunkFails.congr {s t : State} {k : Nat} {c : Cause} (hsame : s.SameOperands t) (h : s.ChunkFails k c) :
    t.ChunkFails k c := by
  cases h with
  | missing h => exact .missing ((hsame.readWord k).trans h)
  | illegal v h hv => exact .illegal v ((hsame.readWord k).trans h) hv

theorem State.withDecoding_same (s : State) (d : Option PartialValue) : s.SameOperands { s with decoding := d } :=
  ⟨rfl, rfl, rfl, rfl, rfl, rfl, rfl, rfl⟩

theorem State.readChunks_of_fails {s : State} {p : PartialValue} {c : Cause} (fuel : Nat) (hp : s.decoding = some p)
    (h : s.ChunkFails (p.taken.val + 1) c) : State.readChunks (fuel + 1) s = s.raise c (p.taken.val + 1) := by
  cases h with
  | missing hw => exact State.readChunks_of_missing fuel hp hw
  | illegal v hw hv => exact State.readChunks_of_illegal fuel hp hw hv.not_gt

/-- The reading of a value stops at the first word that fails (60_exceptions.md R303). -/
theorem State.readChunks_stops {k : Nat} {c : Cause} : ∀ (fuel : Nat) (s : State) (p : PartialValue),
    s.decoding = some p → p.taken.val < k → k ≤ p.len.toNat + 1 → k ≤ p.taken.val + fuel →
    (∀ j, p.taken.val < j → j < k → s.AcceptsChunk j) → s.ChunkFails k c →
    State.readChunks fuel s = s.raise c k
  | 0, _, _, _, hlow, _, hfuel, _, _ => by omega
  | fuel + 1, s, p, hp, hlow, hlen, hfuel, haccepts, hfails => by
    rcases (Nat.succ_le_of_lt hlow).eq_or_lt with rfl | hlater
    · exact State.readChunks_of_fails fuel hp hfails
    · obtain ⟨v, hv, hchunk⟩ := haccepts _ (Nat.lt_succ_self _) hlater
      have hmore : p.taken.val < p.len.toNat := by omega
      have hnext := p.extend_taken (slice 0 15 v) hmore
      rw [State.readChunks_of_more fuel hp hv hchunk hmore]
      exact State.readChunks_stops fuel { s with decoding := some (p.extend (slice 0 15 v)) } _ rfl (by omega) hlen
        (by omega) (fun j hj hjk => haccepts j (by omega) hjk) (hfails.congr (s.withDecoding_same _))

/-- DECODE of a multi-word value stops at the first of its continuation words that fails (45_decoder_dispatch.md R215,
60_exceptions.md R303). -/
theorem execDecode_of_failing_chunk {s : State} {w : Word} {n k : Nat} {c : Cause} (hw : s.readWord 0 = some w)
    (hn : Word.chunkCount w = some n) (hk : 1 ≤ k) (hkn : k ≤ n) (haccepts : ∀ j, 1 ≤ j → j < k → s.AcceptsChunk j)
    (hfails : s.ChunkFails k c) : execDecode s = .next (s.raise c k) := by
  obtain ⟨kind, sg, L, rfl, hlead⟩ := State.decodeLeadWord_of_chunkCount hn
  have hL := L.isLt
  rw [execDecode_of_lead hw, hlead]
  exact congrArg _ (State.readChunks_stops 4 (s.beginValue kind sg L) _ rfl hk hkn (by simp; omega) haccepts
    (hfails.congr (s.beginValue_same kind sg L)))

theorem State.raise_truncated_eq_failed (s : State) (k : Nat) : s.raise .truncated k = s.failed 2#2 k := rfl

/-- Settles O39: a missing or forbidden lead word ends the DECODE at word 0, and a continuation word that fails at its own
index. -/
theorem decodeStopsAtFirstFailingWord : Obligations.DecodeStopsAtFirstFailingWord := by
  intro s
  refine ⟨fun h => ?_, fun w hw h => ?_, fun w n k hw hn hk hkn haccepts => ⟨fun h => ?_, fun v hv h => ?_⟩⟩
  · exact execDecode_of_missing ((s.readWord_eq_none 0).mpr h)
  · rw [exec_decode, execDecode_of_lead hw, State.decodeLeadWord_forbidden h, State.raise_illegal_eq_failed]
  · exact execDecode_of_failing_chunk hw hn hk hkn haccepts (.missing ((s.readWord_eq_none k).mpr h))
  · exact execDecode_of_failing_chunk hw hn hk hkn haccepts (.illegal v hv h)

/-! ### The words of a successful DECODE -/

/-- The words ws are exactly what a DECODE reads, with the value v: it delivers v wherever they stand, and where one of them
is the first that is missing it stops there (45_decoder_dispatch.md R214, R216). -/
structure Reads (ws : List Word) (v : Pattern) : Prop where
  delivers : ∀ s : State, s.offersWords ws → execDecode s = .next (s.deliver v ws.length)
  needs : ∀ (s : State) k (hk : k < ws.length), (∀ j (hj : j < k), s.readWord j = some ws[j]) → s.readWord k = none →
    execDecode s = .next (s.raise .truncated k)

/-- The lead word w begins a value with the chunks cs: as many as it asks for, or none where it is a whole value
(30_encoding.md R71, R83). -/
def Word.LeadsChunks (w : Word) (cs : List (BitVec 15)) : Prop :=
  Word.chunkCount w = some cs.length ∨
    Word.chunkCount w = none ∧ (Word.decimal w ∨ 0xFFF0 ≤ w.toNat ∧ w.toNat ≤ 0xFFF4) ∧ cs = []

theorem Word.LeadsChunks.length_le {w : Word} {cs : List (BitVec 15)} (h : Word.LeadsChunks w cs) : cs.length ≤ 4 := by
  rcases h with h | ⟨-, -, rfl⟩
  · obtain ⟨-, -, L, hL, -⟩ := State.decodeLeadWord_of_chunkCount h
    have := L.isLt
    omega
  · exact Nat.zero_le 4

theorem reads_of_single {w : Word} (h : Word.decimal w ∨ 0xFFF0 ≤ w.toNat ∧ w.toNat ≤ 0xFFF4) : ∃ v, Reads [w] v := by
  obtain ⟨v, hv⟩ := State.decodeLeadWord_of_single h
  refine ⟨v, fun s hs => ?_, fun s k hk _ hnone => ?_⟩
  · rw [execDecode_of_lead (hs 0 Nat.one_pos)]
    exact congrArg _ (hv s)
  · obtain rfl : k = 0 := Nat.lt_one_iff.mp hk
    exact execDecode_of_missing hnone

theorem reads_of_chunks {w : Word} {cs : List (BitVec 15)} (h : Word.chunkCount w = some cs.length) :
    ∃ v, Reads (w :: cs.map chunkWord) v := by
  obtain ⟨kind, sg, L, hlen, hlead⟩ := State.decodeLeadWord_of_chunkCount h
  refine ⟨multiValue kind sg (unpack cs), fun s hs => ?_, fun s k hk hbefore hnone => ?_⟩
  · obtain ⟨hw, hcs⟩ := State.offersWords_cons hs
    rw [execDecode_of_lead hw, hlead, State.decodeMulti_of_offersChunks s kind sg L hlen hcs, List.length_cons,
      List.length_map, hlen, Nat.add_comm 2]
  · rcases k.eq_zero_or_pos with rfl | hpos
    · exact execDecode_of_missing hnone
    · refine execDecode_of_failing_chunk (hbefore 0 hpos) h hpos ?_ (fun j hj hjk => ?_) (.missing hnone)
      · simpa [Nat.lt_succ_iff] using hk
      · obtain ⟨i, rfl⟩ := Nat.exists_eq_add_of_le' hj
        refine ⟨_, hbefore (i + 1) hjk, ?_⟩
        rw [List.getElem_cons_succ, List.getElem_map, chunkWord_toNat]
        exact BitVec.isLt _

theorem Word.LeadsChunks.reads {w : Word} {cs : List (BitVec 15)} (h : Word.LeadsChunks w cs) :
    ∃ v, Reads (w :: cs.map chunkWord) v := by
  rcases h with h | ⟨-, h, rfl⟩
  · exact reads_of_chunks h
  · exact reads_of_single h

theorem State.exists_offersChunks {s : State} {n : Nat} (h : ∀ j, 1 ≤ j → j ≤ n → s.AcceptsChunk j) :
    ∃ cs : List (BitVec 15), cs.length = n ∧ s.offersChunks cs := by
  choose v hv hchunk using fun j : Fin n => h (j + 1) (Nat.le_add_left 1 j) j.isLt
  refine ⟨List.ofFn fun j => slice 0 15 (v j), List.length_ofFn, fun j hj => ?_⟩
  rw [List.length_ofFn] at hj
  rw [List.getElem_ofFn, chunkWord_slice (hchunk ⟨j, hj⟩)]
  exact hv ⟨j, hj⟩

theorem State.offersWords_of_offersChunks {s : State} {w : Word} {cs : List (BitVec 15)} (hw : s.readWord 0 = some w)
    (hcs : s.offersChunks cs) : s.offersWords (w :: cs.map chunkWord) := by
  intro j hj
  cases j with
  | zero => exact hw
  | succ j =>
    rw [List.getElem_cons_succ, List.getElem_map]
    exact hcs j (by simpa using hj)

section Succeeds

variable {s t : State} (ht : execDecode s = .next t) (hok : t.decStatus = 0#2)
include ht hok

theorem execDecode_ne_raise_of_ok (c : Cause) (k : Nat) : execDecode s ≠ .next (s.raise c k) := by
  intro hraise
  cases hraise.symm.trans ht
  cases c <;> cases hok

/-- A DECODE that succeeds found every continuation word its lead word asks for, since it would have stopped at the first
that fails. -/
theorem State.acceptsChunk_of_ok {w : Word} {n : Nat} (hw : s.readWord 0 = some w) (hn : Word.chunkCount w = some n) :
    ∀ k, 1 ≤ k → k ≤ n → s.AcceptsChunk k := by
  intro k
  induction k using Nat.strong_induction_on with
  | _ k ih =>
    intro hk hkn
    refine (s.acceptsChunk_or_fails k).resolve_right fun ⟨c, hc⟩ => execDecode_ne_raise_of_ok ht hok c k ?_
    exact execDecode_of_failing_chunk hw hn hk hkn (fun j hj hjk => ih j hjk hj (by omega)) hc

/-- The words a DECODE that succeeds has read: its lead word and the chunks that one asks for. -/
theorem State.offersWords_of_ok : ∃ w cs, Word.LeadsChunks w cs ∧ s.offersWords (w :: cs.map chunkWord) := by
  cases hw : s.readWord 0 with
  | none => exact absurd (execDecode_of_missing hw) (execDecode_ne_raise_of_ok ht hok _ _)
  | some w =>
    cases hn : Word.chunkCount w with
    | some n =>
      obtain ⟨cs, rfl, hcs⟩ := State.exists_offersChunks (State.acceptsChunk_of_ok ht hok hw hn)
      exact ⟨w, cs, .inl hn, State.offersWords_of_offersChunks hw hcs⟩
    | none =>
      have hlegal := (Word.single_of_chunkCount hn).resolve_left fun h =>
        execDecode_ne_raise_of_ok ht hok .illegalCodeUnit 0
          (by rw [execDecode_of_lead hw, State.decodeLeadWord_forbidden h])
      exact ⟨w, [], .inr ⟨hn, hlegal, rfl⟩, State.offersWords_of_offersChunks hw fun j hj => absurd hj j.not_lt_zero⟩

end Succeeds

/-- Settles O41: a DECODE that succeeds has read its lead word and the chunks that one asks for, and `Reads` says that
these words, and no fewer, are what it needs. -/
theorem consumedLength : Obligations.ConsumedLength := by
  intro s t ht hok
  obtain ⟨w, cs, hlead, hoffers⟩ := State.offersWords_of_ok ht hok
  obtain ⟨v, hreads⟩ := hlead.reads
  cases (hreads.delivers s hoffers).symm.trans ht
  have hlen : (w :: cs.map chunkWord).length = 1 + cs.length := by simp [Nat.add_comm]
  have hle := hlead.length_le
  have hcons : (s.deliver v (w :: cs.map chunkWord).length).decCons.toNat = 1 + cs.length := by
    rw [State.deliver_decCons, BitVec.toNat_ofNat, hlen]; omega
  rw [hcons]
  refine ⟨Nat.le_add_right 1 _, by omega, fun k hk => ?_, fun s' t' hsame ht' => ?_, fun s' k hk hsame hnone => ?_,
    w, hoffers 0 (Nat.zero_lt_succ _), ?_⟩
  · rw [hoffers k (hlen ▸ hk)]
    exact Option.some_ne_none _
  · have hoffers' : s'.offersWords (w :: cs.map chunkWord) := fun j hj => (hsame j (hlen ▸ hj)).trans (hoffers j hj)
    cases (hreads.delivers s' hoffers').symm.trans ht'
    exact State.deliver_sameResults _ _ _ _
  · exact hreads.needs s' k (hlen ▸ hk) (fun j hj => (hsame j hj).trans (hoffers j (by omega))) hnone
  · rcases hlead with hn | ⟨hn, hlegal, rfl⟩
    · rw [hn]
    · rw [hn]
      exact ⟨hlegal, rfl⟩

end Sys2Proof.Machine
end

section
/-! PROOFS. The statements of 46_special_values.md. A lead word at or above 0xFFF0 is emitted for the zeros, infinities and
NaNs alone (R171), and such a word decodes to its operand, a NaN to DECODE_NAN_BITS (R244); so the word and the operand
determine each other, up to the NaN's payload. -/

namespace Sys2Proof.Machine

/-! ### The SP rows -/

/-- DECODE_NAN_BITS is a NaN (46_special_values.md R243; log 2). -/
theorem classify_decodeNanBits : classify Config.decodeNanBits = .nan := by decide

/-- Settles O35: each row delivers its own scalar. -/
theorem spRowsDeliverTheirScalar : Obligations.SpRowsDeliverTheirScalar :=
  fun _ => ⟨rfl, rfl, rfl, rfl, rfl, classify_decodeNanBits⟩

/-! ### The operands of the special words -/

/-- The NI, DS and GB lead words lie below the special words (43_encoder_dispatch.md R171, R179). -/
theorem lead_lt_of_finite_nonzero {b : Pattern} (hb : classify b = .normal ∨ classify b = .subnormal) :
    ((encodeSequence b).getD 0 0#16).toNat < 0xFFF0 := by
  by_cases hp : 1023 ≤ (extract b).1
  · rw [encodeSequence_of_top_binade hb hp, niEncode, List.getD_cons_zero, niWord_toNat]
    omega
  · cases hw : dsEncode b with
    | some w =>
      obtain ⟨hdecimal, -⟩ := dsEncode_word hw
      rw [encodeSequence_of_eligible hb (not_le.mp hp) hw, List.getD_cons_zero]
      unfold Word.decimal at hdecimal; omega
    | none =>
      rw [encodeSequence_of_general hb (not_le.mp hp) hw, gbEncode, List.getD_cons_zero, gbWord_toNat]
      omega

/-- An operand whose lead word is special is what that word decodes to, a NaN being DECODE_NAN_BITS
(46_special_values.md R244). -/
theorem spDecode_of_special_lead {b : Pattern} (h : 0xFFF0 ≤ ((encodeSequence b).getD 0 0#16).toNat) :
    spDecode ((encodeSequence b).getD 0 0#16) = decodedOperand b := by
  by_cases hE : expField b = 2047
  · have hclass := inf_or_nan hE
    rw [encodeSequence_of_inf_or_nan hclass, List.getD_cons_zero, spDecode_spEncode_of_inf_or_nan hclass]
  · rcases zero_or_finite_nonzero hE with hzero | hb
    · have hseq : encodeSequence b = [spEncode b] := by rw [encodeSequence, hzero]
      rw [hseq, List.getD_cons_zero, spDecode_spEncode_of_zero hzero, decodedOperand_of_not_nan (by rw [hzero]; decide)]
    · exact absurd h (lead_lt_of_finite_nonzero hb).not_ge

/-- 0xFFF4 is the lead word of the NaNs: another operand with that word would be DECODE_NAN_BITS. -/
theorem lead_eq_nan_word_iff (b : Pattern) : (encodeSequence b).getD 0 0#16 = 0xFFF4#16 ↔ classify b = .nan := by
  refine ⟨fun hlead => ?_, fun hnan => ?_⟩
  · by_contra hnan
    have hdec := spDecode_of_special_lead (b := b) (by rw [hlead]; decide)
    rw [hlead, decodedOperand_of_not_nan hnan] at hdec
    exact hnan (hdec ▸ classify_decodeNanBits)
  · rw [encodeSequence_of_inf_or_nan (.inr hnan), List.getD_cons_zero, spEncode_of_nan hnan]

/-- The zeros and infinities encode to the words they decode from (46_special_values.md R240). -/
theorem lead_spDecode {w : Word} (hw : 0xFFF0 ≤ w.toNat) (hw' : w.toNat < 0xFFF4) :
    (encodeSequence (spDecode w)).getD 0 0#16 = w := by
  have hcases : w = 0xFFF0#16 ∨ w = 0xFFF1#16 ∨ w = 0xFFF2#16 ∨ w = 0xFFF3#16 := by bv_omega
  rcases hcases with rfl | rfl | rfl | rfl <;> rfl

/-- Below 0xFFF4 a special word has one operand, the scalar it decodes to. -/
theorem lead_eq_special_word_iff (b : Pattern) {w : Word} (hw : 0xFFF0 ≤ w.toNat) (hw' : w.toNat < 0xFFF4) :
    (encodeSequence b).getD 0 0#16 = w ↔ b = spDecode w := by
  refine ⟨fun hlead => ?_, fun hb => hb ▸ lead_spDecode hw hw'⟩
  have hnan : classify b ≠ .nan := fun hnan => by
    rw [hlead.symm.trans ((lead_eq_nan_word_iff b).mpr hnan)] at hw'
    exact absurd hw' (by decide)
  rw [← decodedOperand_of_not_nan hnan, ← spDecode_of_special_lead (hlead ▸ hw), hlead]

/-- Settles O49: ENC_OUT[0] is the lead word of ENC_IN's sequence. -/
theorem specialWordsAreExactlyTheirPatterns : Obligations.SpecialWordsAreExactlyTheirPatterns := by
  intro s t ht
  cases (exec_encode s).symm.trans ht
  rw [State.setEncoding_encOut_zero]
  exact ⟨lead_eq_special_word_iff _ (by decide) (by decide), lead_eq_special_word_iff _ (by decide) (by decide),
    lead_eq_special_word_iff _ (by decide) (by decide), lead_eq_special_word_iff _ (by decide) (by decide),
    (lead_eq_nan_word_iff _).trans (classify_eq_nan_iff _)⟩

end Sys2Proof.Machine
end

section
/-! PROOFS. The statements of 60_exceptions.md and 70_reset_and_hazards.md. A DECODE writes its results alone and depends on
none of them, so two states with the same operands have the same next state (`execDecode_congr`): that a failed DECODE
repeats (R334) is this, with NEXT leaving DEC_OFF as it is. Reset is one operation, whose fields R330 lists. -/

namespace Sys2Proof.Machine

/-! ### Exceptions at the lead word -/

/-- Settles O36: each of the 12 rows raises IllegalCodeUnit(0). -/
theorem forbiddenLeadRowsRaise : Obligations.ForbiddenLeadRowsRaise := by
  intro w s
  rw [← State.raise_illegal_eq_failed]
  exact ⟨rfl, rfl, rfl, rfl, rfl, rfl, rfl, rfl, rfl, rfl, rfl, rfl⟩

/-! ### Reset -/

theorem State.reset_bufLen_toNat : State.reset.bufLen.toNat = 0 := Off.small_toNat 0 (by decide)

theorem State.reset_decOff_toNat : State.reset.decOff.toNat = 0 := Off.small_toNat 0 (by decide)

/-- No word is readable until the host sets BUF_LEN (70_reset_and_hazards.md R330). -/
theorem State.readWord_of_reset_bufLen {s : State} (h : s.bufLen = State.reset.bufLen) (k : Nat) :
    s.readWord k = none := by
  rw [State.readWord_eq_none, h, State.reset_bufLen_toNat]
  exact Nat.zero_le _

/-- A sequence has at least one word and ENC_LEN counts its words, so no ENCODE leaves ENC_LEN = 0. -/
theorem State.setEncoding_encLen_ne_zero (s : State) (b : Pattern) : (s.setEncoding (encodeSequence b)).encLen ≠ 0#3 := by
  obtain ⟨hpos, hle⟩ := encodeSequence_length b
  have hnum := s.setEncoding_encLen_toNat hle
  intro hzero
  rw [hzero, BitVec.toNat_ofNat, Nat.zero_mod] at hnum
  omega

theorem causeCode_ne_idle : ∀ c : Cause, causeCode c ≠ statusIdle
  | .illegalCodeUnit => by decide
  | .truncated => by decide

theorem execDecode_not_idle (s : State) : ∃ t, execDecode s = .next t ∧ t.decStatus ≠ statusIdle := by
  obtain ⟨v, n, _, _, h⟩ | ⟨c, k, _, h⟩ := execDecode_outcome s
  · exact ⟨_, h, show statusOk ≠ statusIdle by decide⟩
  · exact ⟨_, h, causeCode_ne_idle c⟩

/-- Settles O1: the fields of reset; ENCODE counts at least one word, and DECODE ends in OK or in an exception's code. -/
theorem resetState : Obligations.ResetState :=
  ⟨⟨rfl, State.reset_encOut_get, rfl, State.reset_bufLen_toNat, State.reset_decOff_toNat, rfl, rfl, rfl, rfl⟩,
    fun _ => rfl,
    fun _ k h => State.readWord_of_reset_bufLen h k,
    fun s => ⟨_, exec_encode s, s.setEncoding_encLen_ne_zero s.encIn⟩,
    execDecode_not_idle⟩

theorem step_of_reset {s : State} {rest : List HostAction} (hp : s.pending = .reset :: rest) :
    step s = .next (s.setPending rest).hostReset := by
  unfold step; rw [hp]

/-- BUF's words are free anew after a reset (70_reset_and_hazards.md R330; log 4). -/
theorem State.memRead_hostReset (s : State) (a : Nat) :
    s.hostReset.memRead a = Config.bufAtReset (s.bufEpoch + 1) a := rfl

/-- Settles O2: the port registers are those of `State.reset`. -/
theorem resetInputResets : Obligations.ResetInputResets := fun s rest hp =>
  ⟨_, step_of_reset hp, rfl, State.reset_encOut_get, rfl, State.reset_bufLen_toNat, State.reset_decOff_toNat,
    rfl, rfl, rfl, rfl, rfl, rfl, (s.setPending rest).memRead_hostReset⟩

/-! ### A failed DECODE repeats -/

/-- The operands, the results of DECODE and the value being read make up the whole state. -/
theorem State.eq_of_same {t t' : State} (hops : t.SameOperands t') (hres : t.SameResults t')
    (hdec : t.decoding = t'.decoding) : t = t' := by
  obtain ⟨hencIn, hencOut, hencLen, hbufLen, hdecOff, hbuf, hepoch, hpending⟩ := hops
  obtain ⟨hval, hcons, hstatus, herridx⟩ := hres
  cases t
  cases t'
  simp_all only

/-- No value is left half read (log 7). -/
theorem decoding_none_of_execDecode {s t : State} (ht : execDecode s = .next t) : t.decoding = none := by
  obtain ⟨v, n, _, _, h⟩ | ⟨c, k, _, h⟩ := execDecode_outcome s
  all_goals
    cases h.symm.trans ht
    rfl

theorem State.SameOperands.symm {s t : State} (h : s.SameOperands t) : t.SameOperands s :=
  ⟨h.encIn.symm, h.encOut.symm, h.encLen.symm, h.bufLen.symm, h.decOff.symm, h.buf.symm, h.bufEpoch.symm,
    h.pending.symm⟩

/-- DECODE's next state depends on nothing DECODE writes: the results of earlier commands are overwritten whole
(10_state.md R31, 60_exceptions.md R302). -/
theorem execDecode_congr {s s' : State} (h : s.SameOperands s') : execDecode s' = execDecode s := by
  obtain ⟨t, ht, hst⟩ := execDecode_frame s
  obtain ⟨t', ht', hst'⟩ := execDecode_frame s'
  have hops : t.SameOperands t' := hst.symm.trans (h.trans hst')
  have hres : t.SameResults t' := decodeDependsOnlyOnWordsRead s s' t t' ht ht' h.decOff.symm h.bufLen.symm
    fun k _ => by rw [h.memRead]
  have hdec : t.decoding = t'.decoding :=
    (decoding_none_of_execDecode ht).trans (decoding_none_of_execDecode ht').symm
  rw [ht, ht', State.eq_of_same hops hres hdec]

/-- A DECODE from the state a DECODE left gives that state again. -/
theorem execDecode_again {s t : State} (ht : execDecode s = .next t) : execDecode t = .next t := by
  obtain ⟨u, hu, hsame⟩ := execDecode_frame s
  cases hu.symm.trans ht
  rw [execDecode_congr hsame, ht]

theorem State.setDecOff_of_decOff {s : State} {v : Off} (h : v = s.decOff) : s.setDecOff v = s := by
  subst h; rfl

/-- Settles O45: a failed DECODE consumes no word, so NEXT leaves its state as it is. -/
theorem failedDecodeRepeats : Obligations.FailedDecodeRepeats := by
  intro s t ht hst
  have hnext : t.nextOff = t.decOff := State.nextOff_of_decCons_zero (decCons_zero_of_exec_decode ht hst)
  refine ⟨hnext, ?_⟩
  rw [State.setDecOff_of_decOff hnext]
  exact execDecode_again ht

end Sys2Proof.Machine
end
